-- ==== Sys2Proof/Word.lean ====
section
/-! DEFINITION. The two word types of the block and the one wrapping subtraction its rules use. -/

namespace Sys2Proof

/-- Bus address and bus data are 8 bits wide, and every register is one byte wide (00_scope.md R6). -/
abbrev Byte := BitVec 8

/-- The 18-bit bus input word that the transport hands the block in every core cycle
(30_encoding.md R80). -/
abbrev BusWord := BitVec 18

/-- `sub8(a, b)` is `(a - b) mod 256` (00_scope.md R10). -/
def sub8 (a b : Byte) : Byte := a - b

end Sys2Proof
end

