-- ==== Sys2Proof/Config.lean ====
section
/-! DEFINITION. The configuration of the block: the implementation parameters of 00_scope.md R7, each
a field of plain data, and the two draws of the spec, each an uninterpreted constant. -/

namespace Sys2Proof

/-- `TRIG_CONFLICT_POLICY` (R7, R163): which write is kept when two steps of the Trigger FSM write one
variable at one edge. The spec leaves it open (92_eei_decisions.md D11), so it is a parameter. -/
inductive ConflictPolicy where
  /-- the value of the lowest-numbered step that writes the variable -/
  | earlierWins
  /-- the value of the highest-numbered step that writes the variable -/
  | laterWins
  deriving DecidableEq, Repr

/-- The numeric codes `MODE_STOP` .. `MODE_CONSTANT` of the five modes (R7, R85), held as parameters so
that the model can be re-targeted when the real codes are known (D4). -/
structure ModeCodes where
  stop : Byte
  idle : Byte
  interval : Byte
  oneShot : Byte
  constant : Byte
  deriving DecidableEq, Repr

/-- The spec's own values of the mode codes (30_encoding.md R85, decision D4). -/
def ModeCodes.ofSpec : ModeCodes :=
  { stop := 0x00, idle := 0x01, interval := 0x02, oneShot := 0x03, constant := 0x04 }

/-- The implementation parameters (00_scope.md R7). They are fixed when the hardware is generated. The
model carries them in the state, so that a statement about every state is a statement about every
configuration. No step changes them. -/
structure Config where
  /-- `N_TRIG`: the number of trigger channels, 1 to 8 (D6) -/
  nTrig : Nat
  /-- `CLKDIV_MAX_PERIOD`: core cycles per base strobe, at least 1 (D10) -/
  clkdivMaxPeriod : Nat
  /-- `DIV_INITIAL_PERIOD`: the reset value of register 0x14 (D7) -/
  divInitialPeriod : Byte
  /-- `DIV_MAX_PERIOD`: a constructor argument of the Divider to which the spec gives no behaviour (R7,
  D8), so nothing reads it -/
  divMaxPeriod : Nat
  /-- `PRODUCT_ID[0..5]`: six ASCII bytes, character j at address 0x00 + j (R63, D19) -/
  productId : Vector Byte 6
  /-- `HW_REV` (R116) -/
  hwRev : Byte
  /-- `GW_REV` (R117) -/
  gwRev : Byte
  /-- `CAMERA_COUNT` (R118) -/
  cameraCount : Byte
  /-- `GPIO_COUNT` (R119) -/
  gpioCount : Byte
  /-- the "fixed product-code → count table" of R118 and R241, which the spec does not give (N6) -/
  cameraTable : List (Vector Byte 6 × Byte)
  /-- `DEFAULT(a)`: the reset values that are not 0x00 of the RW registers other than 0x14, by address
  (R7, D17). The spec's value is the empty list. -/
  defaults : List (Byte × Byte)
  /-- the five mode codes (D4) -/
  modes : ModeCodes
  /-- `TRIG_CONFLICT_POLICY` (D11) -/
  policy : ConflictPolicy
  /-- `XBAR_INPUTS`: the crossbar input vector, as the channel whose output stands at each index (R205,
  D15). Its length is `N_IN`. -/
  xbarInputs : List (Fin 8)
  /-- `HAS_RESET_CTRL` and `RESET_MASK_ADDR`: the address of the ResetController's mask register, none
  when the variant is absent (R131, R208, D22) -/
  resetMaskAddr : Option Byte
  deriving DecidableEq, Repr

/-- `TRIGGER_COUNT` is the number of channels (R7, R120, D18). -/
def Config.triggerCount (cfg : Config) : Byte := BitVec.ofNat 8 cfg.nTrig

/-- `DEFAULT(a)`: 0x00 unless the configuration lists another byte for `a` (R7, D17). -/
def Config.defaultAt (cfg : Config) (a : Byte) : Byte := (cfg.defaults.lookup a).getD 0x00

/-- `N_IN`, the number of crossbar inputs (R205). -/
def Config.nIn (cfg : Config) : Nat := cfg.xbarInputs.length

/-- The spec's value of `XBAR_INPUTS` for `n` channels: `inputs[k] = out[k]` for `k < n` (R205, D15). -/
def Config.specInputs (n : Nat) : List (Fin 8) := (List.finRange 8).filter (fun k => k.val < n)

/-- DESIGN CHOICE (assumption 1). The configuration of the spec's own vectors: N_TRIG = 4, C = 2, P = 2
and the invented identification bytes of vectors V10 and V11 (95_test_vectors.md). Two values are the
model's own, since the spec gives none: DIV_MAX_PERIOD = 256, which nothing reads (R7, D8), and the
product-code to camera-count table with the one entry ABCDEF -> 4 (R118, R241, N6), which this product
code and camera count need to be valid. The remaining fields, `defaults`, `modes`, `policy`, `xbarInputs`
and `resetMaskAddr`, have the spec's value of R7. State.reset is the reset state of this configuration. -/
def Config.vectors : Config :=
  { nTrig := 4
    clkdivMaxPeriod := 2
    divInitialPeriod := 0x02
    divMaxPeriod := 256
    productId := #v[0x41, 0x42, 0x43, 0x44, 0x45, 0x46]
    hwRev := 0x02
    gwRev := 0x07
    cameraCount := 0x04
    gpioCount := 0x10
    cameraTable := [(#v[0x41, 0x42, 0x43, 0x44, 0x45, 0x46], 0x04)]
    defaults := []
    modes := ModeCodes.ofSpec
    policy := .earlierWins
    xbarInputs := Config.specInputs 4
    resetMaskAddr := none }

/-- FREE VALUE `UNMAPPED_READ` (R7, R113, D20; assumption 5): the byte that a read of an unmapped
address returns, one for each core cycle. It has no body: nothing is known of it. -/
opaque Config.unmappedRead : Nat → Byte

/-- FREE VALUE `XBAR_OOR` (R7, R203, D16; assumption 6): the bit that a crossbar cell latches when its
select names no input, one for each core cycle (first argument) and each of the sixteen cells (second
argument, 0 to 7 for A0 to A7 and 8 to 15 for B0 to B7). It has no body: nothing is known of it. -/
opaque Config.xbarOor : Nat → Nat → Bool

end Sys2Proof
end

