-- ==== Sys2Proof/Syntax.lean ====
section
/-! DEFINITION. The register names of 10_state.md R23 and the bus operations: one constructor of Instr
per row of spec/opcode_table.json. The block is no processor: what it executes in a core cycle is one
bus operation, or none (00_scope.md R1, decision D23). -/

namespace Sys2Proof

/-- The registers of the map (10_state.md R23, R24), by name. -/
inductive Reg where
  /-- Product ID byte `j`, 0x00 + j -/
  | productId (j : Fin 6)
  /-- Hardware Revision, 0x06 -/
  | hwRevision
  /-- Gateware Revision, 0x07 -/
  | gwRevision
  /-- Camera Count, 0x0A -/
  | cameraCount
  /-- GPIO Count, 0x0B -/
  | gpioCount
  /-- Trigger Count, 0x0C -/
  | triggerCount
  /-- Clock Divider, 0x14 -/
  | clockDivider
  /-- Power Control, 0x15 -/
  | powerControl
  /-- control byte of crossbar cell A`i`, 0x20 + i -/
  | xbarA (i : Fin 8)
  /-- control byte of crossbar cell B`i`, 0x28 + i -/
  | xbarB (i : Fin 8)
  /-- Trigger Enables, 0x3C -/
  | triggerEnables
  /-- Mode of channel `k`, 0x40 + 8k -/
  | mode (k : Fin 8)
  /-- Interval of channel `k`, 0x41 + 8k -/
  | interval (k : Fin 8)
  /-- Duration of channel `k`, 0x42 + 8k -/
  | duration (k : Fin 8)
  /-- Phase of channel `k`, 0x43 + 8k -/
  | phase (k : Fin 8)
  /-- the ResetController's mask register, at `RESET_MASK_ADDR` when it is present (R131) -/
  | resetMask
  deriving DecidableEq, Repr

/-- Access right of a register as seen from the bus (10_state.md R22). -/
inductive Access where
  | ro
  | rw
  deriving DecidableEq, Repr

/-- The bus operations, one constructor per row of spec/opcode_table.json. `RD` rows ignore the data
bits of the word and `NOP` ignores bits 16..0 (30_encoding.md R80), so they carry none. -/
inductive Instr where
  /-- NOP: no bus operation in the cycle (R130) -/
  | nop
  /-- RD.PRODUCT_ID (R115) -/
  | rdProductId (j : Fin 6)
  /-- WR.PRODUCT_ID (R115, R114) -/
  | wrProductId (j : Fin 6) (v : Byte)
  /-- RD.HW_REVISION (R116) -/
  | rdHwRevision
  /-- WR.HW_REVISION (R116, R114) -/
  | wrHwRevision (v : Byte)
  /-- RD.GW_REVISION (R117) -/
  | rdGwRevision
  /-- WR.GW_REVISION (R117, R114) -/
  | wrGwRevision (v : Byte)
  /-- RD.CAMERA_COUNT (R118) -/
  | rdCameraCount
  /-- WR.CAMERA_COUNT (R118, R114) -/
  | wrCameraCount (v : Byte)
  /-- RD.GPIO_COUNT (R119) -/
  | rdGpioCount
  /-- WR.GPIO_COUNT (R119, R114) -/
  | wrGpioCount (v : Byte)
  /-- RD.TRIGGER_COUNT (R120) -/
  | rdTriggerCount
  /-- WR.TRIGGER_COUNT (R120, R114) -/
  | wrTriggerCount (v : Byte)
  /-- RD.CLOCK_DIVIDER (R121) -/
  | rdClockDivider
  /-- WR.CLOCK_DIVIDER (R121) -/
  | wrClockDivider (v : Byte)
  /-- RD.POWER_CONTROL (R122) -/
  | rdPowerControl
  /-- WR.POWER_CONTROL (R122) -/
  | wrPowerControl (v : Byte)
  /-- RD.XBAR_A (R123) -/
  | rdXbarA (i : Fin 8)
  /-- WR.XBAR_A (R123) -/
  | wrXbarA (i : Fin 8) (v : Byte)
  /-- RD.XBAR_B (R124) -/
  | rdXbarB (i : Fin 8)
  /-- WR.XBAR_B (R124) -/
  | wrXbarB (i : Fin 8) (v : Byte)
  /-- RD.TRIGGER_ENABLES (R125) -/
  | rdTriggerEnables
  /-- WR.TRIGGER_ENABLES (R125) -/
  | wrTriggerEnables (v : Byte)
  /-- RD.TRIG_MODE (R126) -/
  | rdTrigMode (k : Fin 8)
  /-- WR.TRIG_MODE (R126) -/
  | wrTrigMode (k : Fin 8) (v : Byte)
  /-- RD.TRIG_INTERVAL (R127) -/
  | rdTrigInterval (k : Fin 8)
  /-- WR.TRIG_INTERVAL (R127) -/
  | wrTrigInterval (k : Fin 8) (v : Byte)
  /-- RD.TRIG_DURATION (R128) -/
  | rdTrigDuration (k : Fin 8)
  /-- WR.TRIG_DURATION (R128) -/
  | wrTrigDuration (k : Fin 8) (v : Byte)
  /-- RD.TRIG_PHASE (R129) -/
  | rdTrigPhase (k : Fin 8)
  /-- WR.TRIG_PHASE (R129) -/
  | wrTrigPhase (k : Fin 8) (v : Byte)
  /-- RD.UNMAPPED: the fallback row of a read (R113; also the reset mask register of R131, which has no
  row of its own) -/
  | rdUnmapped (a : Byte)
  /-- WR.UNMAPPED: the fallback row of a write (R113; also the reset mask register of R131) -/
  | wrUnmapped (a : Byte) (v : Byte)
  deriving DecidableEq, Repr

/-- The row of spec/opcode_table.json that a bus operation belongs to, by its mnemonic. -/
def Instr.mnemonic : Instr → String
  | .nop => "NOP"
  | .rdProductId _ => "RD.PRODUCT_ID"
  | .wrProductId _ _ => "WR.PRODUCT_ID"
  | .rdHwRevision => "RD.HW_REVISION"
  | .wrHwRevision _ => "WR.HW_REVISION"
  | .rdGwRevision => "RD.GW_REVISION"
  | .wrGwRevision _ => "WR.GW_REVISION"
  | .rdCameraCount => "RD.CAMERA_COUNT"
  | .wrCameraCount _ => "WR.CAMERA_COUNT"
  | .rdGpioCount => "RD.GPIO_COUNT"
  | .wrGpioCount _ => "WR.GPIO_COUNT"
  | .rdTriggerCount => "RD.TRIGGER_COUNT"
  | .wrTriggerCount _ => "WR.TRIGGER_COUNT"
  | .rdClockDivider => "RD.CLOCK_DIVIDER"
  | .wrClockDivider _ => "WR.CLOCK_DIVIDER"
  | .rdPowerControl => "RD.POWER_CONTROL"
  | .wrPowerControl _ => "WR.POWER_CONTROL"
  | .rdXbarA _ => "RD.XBAR_A"
  | .wrXbarA _ _ => "WR.XBAR_A"
  | .rdXbarB _ => "RD.XBAR_B"
  | .wrXbarB _ _ => "WR.XBAR_B"
  | .rdTriggerEnables => "RD.TRIGGER_ENABLES"
  | .wrTriggerEnables _ => "WR.TRIGGER_ENABLES"
  | .rdTrigMode _ => "RD.TRIG_MODE"
  | .wrTrigMode _ _ => "WR.TRIG_MODE"
  | .rdTrigInterval _ => "RD.TRIG_INTERVAL"
  | .wrTrigInterval _ _ => "WR.TRIG_INTERVAL"
  | .rdTrigDuration _ => "RD.TRIG_DURATION"
  | .wrTrigDuration _ _ => "WR.TRIG_DURATION"
  | .rdTrigPhase _ => "RD.TRIG_PHASE"
  | .wrTrigPhase _ _ => "WR.TRIG_PHASE"
  | .rdUnmapped _ => "RD.UNMAPPED"
  | .wrUnmapped _ _ => "WR.UNMAPPED"

end Sys2Proof
end

