-- ==== Sys2Proof/Machine/RegMap.lean ====
section
/-! DEFINITION. The register address map: addresses by name (10_state.md R23), access rights (R22) and
the address decode (30_encoding.md R82, 20_memory.md R61). -/

namespace Sys2Proof

/-- The bus address of a register (10_state.md R23). The reset mask register is at `RESET_MASK_ADDR`
(R131), and has no address where the variant is absent. -/
def Reg.addr (cfg : Config) : Reg → Option Byte
  | .productId j => some (BitVec.ofNat 8 (0x00 + j.val))
  | .hwRevision => some 0x06
  | .gwRevision => some 0x07
  | .cameraCount => some 0x0A
  | .gpioCount => some 0x0B
  | .triggerCount => some 0x0C
  | .clockDivider => some 0x14
  | .powerControl => some 0x15
  | .xbarA i => some (BitVec.ofNat 8 (0x20 + i.val))
  | .xbarB i => some (BitVec.ofNat 8 (0x28 + i.val))
  | .triggerEnables => some 0x3C
  | .mode k => some (BitVec.ofNat 8 (0x40 + 8 * k.val))
  | .interval k => some (BitVec.ofNat 8 (0x41 + 8 * k.val))
  | .duration k => some (BitVec.ofNat 8 (0x42 + 8 * k.val))
  | .phase k => some (BitVec.ofNat 8 (0x43 + 8 * k.val))
  | .resetMask => cfg.resetMaskAddr

/-- Access rights (10_state.md R22, R24): the eleven identification bytes are RO, all others RW. -/
def Reg.access : Reg → Access
  | .productId _ | .hwRevision | .gwRevision | .cameraCount | .gpioCount | .triggerCount => .ro
  | .clockDivider | .powerControl | .xbarA _ | .xbarB _ | .triggerEnables => .rw
  | .mode _ | .interval _ | .duration _ | .phase _ | .resetMask => .rw

/-- Whether a configuration has the register: channel registers exist for `k < N_TRIG` (R23, R82), the
reset mask when the ResetController is present (R131), all others always. -/
def Reg.present (cfg : Config) : Reg → Bool
  | .mode k | .interval k | .duration k | .phase k => k.val < cfg.nTrig
  | .resetMask => cfg.resetMaskAddr.isSome
  | _ => true

/-- The four registers of a channel by address bits [1:0] (30_encoding.md R82). -/
def trigReg (k : Fin 8) (f : BitVec 2) : Reg :=
  if f = 0 then .mode k else if f = 1 then .interval k else if f = 2 then .duration k else .phase k

/-- The address decode of 30_encoding.md R82 over the fixed map: the register at an address, none where
the table of 20_memory.md R61 says unmapped. -/
def Config.fixedRegAt (cfg : Config) (a : Byte) : Option Reg :=
  let high5 : BitVec 5 := a.extractLsb' 3 5
  let low3 : Fin 8 := (a.extractLsb' 0 3).toFin
  let k : Fin 8 := (a.extractLsb' 3 3).toFin
  if high5 = 0b00000 then
    if h : low3.val < 6 then some (.productId ⟨low3.val, h⟩)
    else if low3.val = 6 then some .hwRevision else some .gwRevision
  else if a = 0x0A then some .cameraCount
  else if a = 0x0B then some .gpioCount
  else if a = 0x0C then some .triggerCount
  else if a = 0x14 then some .clockDivider
  else if a = 0x15 then some .powerControl
  else if high5 = 0b00100 then some (.xbarA low3)
  else if high5 = 0b00101 then some (.xbarB low3)
  else if a = 0x3C then some .triggerEnables
  else if a.extractLsb' 6 2 = 0b01 ∧ a.extractLsb' 2 1 = 0b0 ∧ k.val < cfg.nTrig then
    some (trigReg k (a.extractLsb' 0 2))
  else none

/-- The register at an address: the fixed map, and the reset mask register at `RESET_MASK_ADDR`, an
otherwise unmapped address (R61, R131). -/
def Config.regAt (cfg : Config) (a : Byte) : Option Reg :=
  match cfg.fixedRegAt a with
  | some r => some r
  | none => if cfg.resetMaskAddr = some a then some .resetMask else none

/-- Every register a configuration creates (10_state.md R24), in address order, the reset mask last. -/
def Config.registers (cfg : Config) : List Reg :=
  (List.finRange 6).map .productId
    ++ [.hwRevision, .gwRevision, .cameraCount, .gpioCount, .triggerCount, .clockDivider, .powerControl]
    ++ (List.finRange 8).map .xbarA ++ (List.finRange 8).map .xbarB ++ [.triggerEnables]
    ++ ((List.finRange 8).filter (fun k => k.val < cfg.nTrig)).flatMap
        (fun k => [.mode k, .interval k, .duration k, .phase k])
    ++ (if cfg.resetMaskAddr.isSome then [.resetMask] else [])

end Sys2Proof
end

