-- ==== Sys2Proof/WellFormed.lean ====
section
/-! DEFINITION. Validity of a configuration (00_scope.md R8, 60_exceptions.md R241) and
well-formedness of a bus operation in a configuration (30_encoding.md R92). -/

namespace Sys2Proof

/-- Why there is no machine of a configuration: the three configuration-time errors (60_exceptions.md
R241), by the spec's names, and the other constraints of 00_scope.md R7, which the spec gives no error
name (assumption 25). -/
inductive ConfigError where
  /-- two registers are created at one address -/
  | duplicateAddress (a : Byte)
  /-- the input count does not fit the 5-bit select field -/
  | selectTooWide (nIn : Nat)
  /-- the product code has no entry in the product-code to count table -/
  | unknownProductCode (code : Vector Byte 6)
  /-- MODEL: a constraint of 00_scope.md R7 fails and none of the three errors holds (assumption 25) -/
  | constraintFails
  deriving DecidableEq, Repr

/-- `create` for a list of registers with the addresses they request, in order (40_register_file_bus_ops.md
R132): the map, or the fatal error of the first address that is already in use (R241). `done` is the
part of the map built so far. DESIGN CHOICE (assumption 25): where several addresses collide, the first
in the order of the requests is the one reported. -/
def buildMap (done : List (Reg × Byte)) : List (Reg × Byte) → Except ConfigError (List (Reg × Byte))
  | [] => .ok done
  | (r, a) :: rest =>
    if done.any (fun e => e.2 = a) then .error (.duplicateAddress a)
    else buildMap (done ++ [(r, a)]) rest

/-- The registers of a configuration with the addresses they are created at. -/
def Config.requests (cfg : Config) : List (Reg × Byte) :=
  cfg.registers.filterMap (fun r => (r.addr cfg).map (fun a => (r, a)))

/-- The three configuration-time checks of 60_exceptions.md R241: `ceil(log2(N_IN)) > 5` is `N_IN > 32`,
and the camera count is looked up from the product-code table (R118). DESIGN CHOICE (assumption 25): the
spec gives the errors no order; where more than one holds the model answers DuplicateAddress before
SelectTooWide before UnknownProductCode. -/
def Config.check (cfg : Config) : Except ConfigError (List (Reg × Byte)) :=
  match buildMap [] cfg.requests with
  | .error e => .error e
  | .ok map =>
    if 32 < cfg.nIn then .error (.selectTooWide cfg.nIn)
    else if (cfg.cameraTable.lookup cfg.productId).isNone then .error (.unknownProductCode cfg.productId)
    else .ok map

/-- The five mode codes are distinct bytes (R7). -/
def ModeCodes.distinct (m : ModeCodes) : Bool :=
  [m.stop, m.idle, m.interval, m.oneShot, m.constant].Nodup

/-- The constraints of the table of 00_scope.md R7, and CAMERA_COUNT consistent with the product code
(R118, R241). -/
def Config.constraints (cfg : Config) : Bool :=
  decide (1 ≤ cfg.nTrig ∧ cfg.nTrig ≤ 8)
    && decide (1 ≤ cfg.clkdivMaxPeriod)
    && cfg.modes.distinct
    && decide (cfg.nIn ≤ 32)
    && cfg.xbarInputs.all (fun k => k.val < cfg.nTrig)
    && (match cfg.resetMaskAddr with
        | none => true
        | some a => (cfg.fixedRegAt a).isNone)
    && decide (cfg.cameraTable.lookup cfg.productId = some cfg.cameraCount)

/-- A configuration is valid when every constraint of R7 holds and the checks of R241 pass
(00_scope.md R8). -/
def Config.valid (cfg : Config) : Bool :=
  cfg.constraints && (match cfg.check with
    | .ok _ => true
    | .error _ => false)

/-- A bus operation is well formed in a configuration when some bus input word decodes to it: a channel
register's row needs `k < N_TRIG`, an UNMAPPED row an address that no other row selects (R92). -/
def Instr.wellFormed (cfg : Config) : Instr → Bool
  | .rdTrigMode k | .wrTrigMode k _ | .rdTrigInterval k | .wrTrigInterval k _
  | .rdTrigDuration k | .wrTrigDuration k _ | .rdTrigPhase k | .wrTrigPhase k _ => k.val < cfg.nTrig
  | .rdUnmapped a | .wrUnmapped a _ => (cfg.fixedRegAt a).isNone
  | .nop | .rdProductId _ | .wrProductId _ _ | .rdHwRevision | .wrHwRevision _
  | .rdGwRevision | .wrGwRevision _ | .rdCameraCount | .wrCameraCount _
  | .rdGpioCount | .wrGpioCount _ | .rdTriggerCount | .wrTriggerCount _
  | .rdClockDivider | .wrClockDivider _ | .rdPowerControl | .wrPowerControl _
  | .rdXbarA _ | .wrXbarA _ _ | .rdXbarB _ | .wrXbarB _ _
  | .rdTriggerEnables | .wrTriggerEnables _ => true

end Sys2Proof
end

