-- ==== Sys2Proof/Decode.lean ====
section
/-! DEFINITION. The decode of a bus input word (30_encoding.md R80 to R82), the encoder, and the
opcode table as data (R92). -/

namespace Sys2Proof

/-- Field `valid`, bit 17 (R80). -/
def BusWord.valid (w : BusWord) : Bool := w.getLsbD 17
/-- Field `rw`, bit 16 (R80): true for a write. -/
def BusWord.rw (w : BusWord) : Bool := w.getLsbD 16
/-- Field `addr`, bits 15:8 (R80). -/
def BusWord.addr (w : BusWord) : Byte := w.extractLsb' 8 8
/-- Field `data`, bits 7:0 (R80). -/
def BusWord.data (w : BusWord) : Byte := w.extractLsb' 0 8

/-- The RD row of a register of the fixed map (R92). -/
def Reg.readInstr (a : Byte) : Reg → Instr
  | .productId j => .rdProductId j
  | .hwRevision => .rdHwRevision
  | .gwRevision => .rdGwRevision
  | .cameraCount => .rdCameraCount
  | .gpioCount => .rdGpioCount
  | .triggerCount => .rdTriggerCount
  | .clockDivider => .rdClockDivider
  | .powerControl => .rdPowerControl
  | .xbarA i => .rdXbarA i
  | .xbarB i => .rdXbarB i
  | .triggerEnables => .rdTriggerEnables
  | .mode k => .rdTrigMode k
  | .interval k => .rdTrigInterval k
  | .duration k => .rdTrigDuration k
  | .phase k => .rdTrigPhase k
  | .resetMask => .rdUnmapped a

/-- The WR row of a register of the fixed map (R92). -/
def Reg.writeInstr (a : Byte) (v : Byte) : Reg → Instr
  | .productId j => .wrProductId j v
  | .hwRevision => .wrHwRevision v
  | .gwRevision => .wrGwRevision v
  | .cameraCount => .wrCameraCount v
  | .gpioCount => .wrGpioCount v
  | .triggerCount => .wrTriggerCount v
  | .clockDivider => .wrClockDivider v
  | .powerControl => .wrPowerControl v
  | .xbarA i => .wrXbarA i v
  | .xbarB i => .wrXbarB i v
  | .triggerEnables => .wrTriggerEnables v
  | .mode k => .wrTrigMode k v
  | .interval k => .wrTrigInterval k v
  | .duration k => .wrTrigDuration k v
  | .phase k => .wrTrigPhase k v
  | .resetMask => .wrUnmapped a v

/-- Decode of a bus input word, in the order of R81: `valid`, then the address, then `rw`. It is total:
no word is illegal. -/
def decode (cfg : Config) (w : BusWord) : Instr :=
  if w.valid then
    match cfg.fixedRegAt w.addr, w.rw with
    | some r, false => r.readInstr w.addr
    | some r, true => r.writeInstr w.addr w.data
    | none, false => .rdUnmapped w.addr
    | none, true => .wrUnmapped w.addr w.data
  else .nop

/-- Why a number is no bus input word. -/
inductive DecodeError where
  /-- it has a bit above bit 17: there is one length, 18 bits (R80, R89) -/
  | wordTooWide
  deriving DecidableEq, Repr

/-- Decode of a number of any size: rejected by name when it is no 18-bit word. -/
def decodeNat (cfg : Config) (n : Nat) : Except DecodeError Instr :=
  if n < 2 ^ 18 then .ok (decode cfg (BitVec.ofNat 18 n)) else .error .wordTooWide

/-- The instruction that the decoder reads, in the configuration of State.reset, from a word given as
the opcode table numbers its bits: bits `nbits` and above are not given and are 0. -/
def decodeTableWord (nbits w : Nat) : Option Instr :=
  match decodeNat Config.vectors (w % 2 ^ nbits) with
  | .ok i => some i
  | .error _ => none

/-- The bus input word with the four fields of R80. -/
def busWord (valid rw : Bool) (addr data : Byte) : BusWord :=
  BitVec.ofBool valid ++ BitVec.ofBool rw ++ addr ++ data

/-- The canonical word of `RD a` has `data = 0` (R90). -/
def rdWord (a : Byte) : BusWord := busWord true false a 0x00

/-- The word of `WR a, v` (R90). -/
def wrWord (a v : Byte) : BusWord := busWord true true a v

/-- The address field of a bus operation, from R82's patterns. NOP has none, and its canonical word is
all zero (R90). -/
def Instr.addr : Instr → Byte
  | .nop => 0x00
  | .rdProductId j | .wrProductId j _ => 0b00000#5 ++ BitVec.ofNat 3 j.val
  | .rdHwRevision | .wrHwRevision _ => 0x06
  | .rdGwRevision | .wrGwRevision _ => 0x07
  | .rdCameraCount | .wrCameraCount _ => 0x0A
  | .rdGpioCount | .wrGpioCount _ => 0x0B
  | .rdTriggerCount | .wrTriggerCount _ => 0x0C
  | .rdClockDivider | .wrClockDivider _ => 0x14
  | .rdPowerControl | .wrPowerControl _ => 0x15
  | .rdXbarA i | .wrXbarA i _ => 0b00100#5 ++ BitVec.ofNat 3 i.val
  | .rdXbarB i | .wrXbarB i _ => 0b00101#5 ++ BitVec.ofNat 3 i.val
  | .rdTriggerEnables | .wrTriggerEnables _ => 0x3C
  | .rdTrigMode k | .wrTrigMode k _ => 0b01#2 ++ BitVec.ofNat 3 k.val ++ 0b000#3
  | .rdTrigInterval k | .wrTrigInterval k _ => 0b01#2 ++ BitVec.ofNat 3 k.val ++ 0b001#3
  | .rdTrigDuration k | .wrTrigDuration k _ => 0b01#2 ++ BitVec.ofNat 3 k.val ++ 0b010#3
  | .rdTrigPhase k | .wrTrigPhase k _ => 0b01#2 ++ BitVec.ofNat 3 k.val ++ 0b011#3
  | .rdUnmapped a | .wrUnmapped a _ => a

/-- The byte that a write operation carries, none for NOP and the reads. -/
def Instr.writeData : Instr → Option Byte
  | .nop => none
  | .rdProductId _ | .rdHwRevision | .rdGwRevision | .rdCameraCount | .rdGpioCount => none
  | .rdTriggerCount | .rdClockDivider | .rdPowerControl | .rdXbarA _ | .rdXbarB _ => none
  | .rdTriggerEnables | .rdTrigMode _ | .rdTrigInterval _ | .rdTrigDuration _ => none
  | .rdTrigPhase _ | .rdUnmapped _ => none
  | .wrProductId _ v | .wrHwRevision v | .wrGwRevision v | .wrCameraCount v | .wrGpioCount v => some v
  | .wrTriggerCount v | .wrClockDivider v | .wrPowerControl v | .wrXbarA _ v | .wrXbarB _ v => some v
  | .wrTriggerEnables v | .wrTrigMode _ v | .wrTrigInterval _ v | .wrTrigDuration _ v => some v
  | .wrTrigPhase _ v | .wrUnmapped _ v => some v

/-- The canonical bus input word of an operation (R90). -/
def encode (i : Instr) : BusWord :=
  match i with
  | .nop => 0x00000
  | i =>
    match i.writeData with
    | none => rdWord i.addr
    | some v => wrWord i.addr v

/-- The canonical word with the same meaning: the ignored bits of RD and NOP cleared (R90). -/
def BusWord.canonical (w : BusWord) : BusWord :=
  if w.valid then (if w.rw then w else rdWord w.addr) else 0x00000

/-- Which constraint a row of opcode_table.json carries (R92). -/
inductive RowConstraint where
  /-- none -/
  | always
  /-- `j <= 5`, `j` in bits 10:8 -/
  | productChar
  /-- `k < N_TRIG`, `k` in bits 13:11 -/
  | channel
  deriving DecidableEq, Repr

/-- A row of opcode_table.json: a word `W` selects it when `W & mask = pattern` and the constraint holds. -/
structure OpcodeRow where
  mnemonic : String
  pattern : BusWord
  mask : BusWord
  constraint : RowConstraint
  deriving DecidableEq, Repr

/-- Whether a word selects a row, fallback rows apart (R92). -/
def OpcodeRow.selects (cfg : Config) (w : BusWord) (r : OpcodeRow) : Bool :=
  decide (w &&& r.mask = r.pattern) && (match r.constraint with
    | .always => true
    | .productChar => (w.extractLsb' 8 3).toNat ≤ 5
    | .channel => (w.extractLsb' 11 3).toNat < cfg.nTrig)

/-- The rows of opcode_table.json that are not fallbacks, as the table writes them. -/
def opcodeRows : List OpcodeRow :=
  [ ⟨"NOP", 0x00000, 0x20000, .always⟩,
    ⟨"RD.PRODUCT_ID", 0x20000, 0x3F800, .productChar⟩, ⟨"WR.PRODUCT_ID", 0x30000, 0x3F800, .productChar⟩,
    ⟨"RD.HW_REVISION", 0x20600, 0x3FF00, .always⟩, ⟨"WR.HW_REVISION", 0x30600, 0x3FF00, .always⟩,
    ⟨"RD.GW_REVISION", 0x20700, 0x3FF00, .always⟩, ⟨"WR.GW_REVISION", 0x30700, 0x3FF00, .always⟩,
    ⟨"RD.CAMERA_COUNT", 0x20A00, 0x3FF00, .always⟩, ⟨"WR.CAMERA_COUNT", 0x30A00, 0x3FF00, .always⟩,
    ⟨"RD.GPIO_COUNT", 0x20B00, 0x3FF00, .always⟩, ⟨"WR.GPIO_COUNT", 0x30B00, 0x3FF00, .always⟩,
    ⟨"RD.TRIGGER_COUNT", 0x20C00, 0x3FF00, .always⟩, ⟨"WR.TRIGGER_COUNT", 0x30C00, 0x3FF00, .always⟩,
    ⟨"RD.CLOCK_DIVIDER", 0x21400, 0x3FF00, .always⟩, ⟨"WR.CLOCK_DIVIDER", 0x31400, 0x3FF00, .always⟩,
    ⟨"RD.POWER_CONTROL", 0x21500, 0x3FF00, .always⟩, ⟨"WR.POWER_CONTROL", 0x31500, 0x3FF00, .always⟩ ]
  ++
  [ ⟨"RD.XBAR_A", 0x22000, 0x3F800, .always⟩, ⟨"WR.XBAR_A", 0x32000, 0x3F800, .always⟩,
    ⟨"RD.XBAR_B", 0x22800, 0x3F800, .always⟩, ⟨"WR.XBAR_B", 0x32800, 0x3F800, .always⟩,
    ⟨"RD.TRIGGER_ENABLES", 0x23C00, 0x3FF00, .always⟩, ⟨"WR.TRIGGER_ENABLES", 0x33C00, 0x3FF00, .always⟩,
    ⟨"RD.TRIG_MODE", 0x24000, 0x3C700, .channel⟩, ⟨"WR.TRIG_MODE", 0x34000, 0x3C700, .channel⟩,
    ⟨"RD.TRIG_INTERVAL", 0x24100, 0x3C700, .channel⟩, ⟨"WR.TRIG_INTERVAL", 0x34100, 0x3C700, .channel⟩,
    ⟨"RD.TRIG_DURATION", 0x24200, 0x3C700, .channel⟩, ⟨"WR.TRIG_DURATION", 0x34200, 0x3C700, .channel⟩,
    ⟨"RD.TRIG_PHASE", 0x24300, 0x3C700, .channel⟩, ⟨"WR.TRIG_PHASE", 0x34300, 0x3C700, .channel⟩ ]

/-- The two fallback rows of opcode_table.json. -/
def fallbackRows : List OpcodeRow :=
  [ ⟨"RD.UNMAPPED", 0x20000, 0x30000, .always⟩, ⟨"WR.UNMAPPED", 0x30000, 0x30000, .always⟩ ]

/-- The mnemonics of the rows that a word selects, by the table alone (R92): the fallback rows count
when no other row does. -/
def selectedRows (cfg : Config) (w : BusWord) : List String :=
  let hits := opcodeRows.filter (OpcodeRow.selects cfg w)
  (if hits.isEmpty then fallbackRows.filter (OpcodeRow.selects cfg w) else hits).map OpcodeRow.mnemonic

end Sys2Proof
end

