-- ==== Sys2Proof/Machine/State.lean ====
section
/-! DEFINITION. The state of the block (10_state.md R20 to R38) as plain data, the reasons a step could
stop, and the state after reset (R38, R260). -/

namespace Sys2Proof.Machine

/-- Run-time faults. There are none: "Nothing in this block faults at run time" (93_implementation_defined.md;
60_exceptions.md R240, R245), so the type has no constructor and no step answers with a fault. -/
inductive Fault : Type
  deriving DecidableEq, Repr

/-- Refusals of the model. No bus input word is illegal (30_encoding.md R81) and every row of the opcode
table has its meaning, so no meaning answers with a refusal. -/
inductive Refusal where
  /-- raised by an arm of exec for an instruction whose meaning is not written; safe; no arm raises it -/
  | notModelled (mnemonic : String)
  deriving DecidableEq, Repr

/-- The RW registers of the map (10_state.md R24) and the optional reset mask (R131). Channel registers
have a slot for each `k < 8`. A slot with `k ≥ N_TRIG` stands for no hardware (assumption 8). -/
structure RegFile where
  /-- 0x14, the Divider's `period` -/
  clockDivider : Byte
  /-- 0x15, storage only (R122) -/
  powerControl : Byte
  /-- 0x20 + i, control byte of cell A`i` -/
  xbarA : Vector Byte 8
  /-- 0x28 + i, control byte of cell B`i` -/
  xbarB : Vector Byte 8
  /-- 0x3C, bit k enables channel k -/
  triggerEnables : Byte
  /-- 0x40 + 8k, self-clearing (R26) -/
  mode : Vector Byte 8
  /-- 0x41 + 8k -/
  interval : Vector Byte 8
  /-- 0x42 + 8k -/
  duration : Vector Byte 8
  /-- 0x43 + 8k -/
  phase : Vector Byte 8
  /-- at RESET_MASK_ADDR when the ResetController is present -/
  resetMask : Byte
  deriving DecidableEq, Repr

/-- ClockDivider state (10_state.md R30). -/
structure ClockDivider where
  /-- `cd.counter`, core cycles left -/
  counter : Nat
  /-- `cd.strobe`, the base strobe -/
  strobe : Bool
  /-- `cd.clk`, read by nothing in the block (D32) -/
  clk : Bool
  deriving DecidableEq, Repr

/-- Divider state (10_state.md R31). Its period is the register 0x14. -/
structure Divider where
  /-- `dv.counter`, base strobes left -/
  counter : Byte
  /-- `dv.strobe`, the wall tick -/
  strobe : Bool
  /-- `dv.clk`, read by nothing in the block (D32) -/
  clk : Bool
  deriving DecidableEq, Repr

/-- `exec_state` of a Trigger FSM (10_state.md R33). Its encoding is not observable. -/
inductive ExecState where
  /-- no pulse pending or running -/
  | off
  /-- armed at the last qualifying edge, phase not yet resolved -/
  | init
  /-- counting the phase delay -/
  | wait
  /-- `out` was raised for the current arming -/
  | active
  deriving DecidableEq, Repr

/-- Trigger FSM state of one channel (10_state.md R33). `pc` is the phase counter, never a program
counter. -/
structure Channel where
  es : ExecState
  /-- interval counter: wall ticks left before the next arming in Interval mode -/
  ic : Byte
  /-- duration counter: wall ticks left in the current pulse, minus one -/
  dc : Byte
  /-- phase counter: wall ticks left in the phase delay, minus one -/
  pc : Byte
  /-- the channel's logical output, a registered bit -/
  out : Bool
  deriving DecidableEq, Repr

/-- What the outside observes of one cycle (00_scope.md R16, 10_state.md R36). -/
structure Outputs where
  /-- read data, when the cycle's operation is a `RD` -/
  result : Option Byte
  /-- `XA[0..7]` -/
  xa : Vector Bool 8
  /-- `XB[0..7]` -/
  xb : Vector Bool 8
  /-- the reset lines `RST[0..7]`, when the ResetController is present (R208) -/
  rst : Option (Vector Bool 8)
  deriving DecidableEq, Repr

/-- The state during a cycle (00_scope.md R9): the register file and exactly the private state of
10_state.md R29 to R34, and four fields of the model's own. -/
structure State where
  /-- MODEL: the configuration (00_scope.md R7), which no step changes (assumption 1) -/
  cfg : Config
  /-- the RW registers of the register file (R24) -/
  regs : RegFile
  /-- the ClockDivider (R30) -/
  cd : ClockDivider
  /-- the Divider (R31) -/
  dv : Divider
  /-- the Trigger FSMs (R33), one slot for each `k < 8` (assumption 8) -/
  ch : Vector Channel 8
  /-- `latA[i]` (R34) -/
  latA : Vector Bool 8
  /-- `latB[i]` (R34) -/
  latB : Vector Bool 8
  /-- MODEL: the bus input words not yet presented, one a cycle (R15, R110; assumption 3) -/
  busIn : List BusWord
  /-- MODEL: the number of the cycle (R9), the index of the draws (assumption 4) -/
  now : Nat
  /-- MODEL: the outputs of the cycle just run (R16, R36; assumption 7) -/
  obs : Outputs
  deriving DecidableEq, Repr

/-- The register file in cycle 0 (10_state.md R38): `x[0x14] = DIV_INITIAL_PERIOD`, every other RW
register `DEFAULT(a)`. -/
def RegFile.resetOf (cfg : Config) : RegFile :=
  let at_ (r : Reg) : Byte :=
    match r.addr cfg with
    | some a => cfg.defaultAt a
    | none => 0x00
  { clockDivider := cfg.divInitialPeriod
    powerControl := at_ .powerControl
    xbarA := Vector.ofFn fun i => at_ (.xbarA i)
    xbarB := Vector.ofFn fun i => at_ (.xbarB i)
    triggerEnables := at_ .triggerEnables
    mode := Vector.ofFn fun k => at_ (.mode k)
    interval := Vector.ofFn fun k => at_ (.interval k)
    duration := Vector.ofFn fun k => at_ (.duration k)
    phase := Vector.ofFn fun k => at_ (.phase k)
    resetMask := at_ .resetMask }

/-- A channel in cycle 0 (R38). -/
def Channel.reset : Channel := { es := .off, ic := 0, dc := 0, pc := 0, out := false }

/-- Outputs recorded before any cycle has run: DESIGN CHOICE (assumption 7). -/
def Outputs.reset (cfg : Config) : Outputs :=
  { result := none
    xa := Vector.replicate 8 false
    xb := Vector.replicate 8 false
    rst := cfg.resetMaskAddr.map (fun _ => Vector.replicate 8 false) }

/-- The state in cycle 0 of the hardware with configuration `cfg` (10_state.md R38). -/
def State.resetOf (cfg : Config) : State :=
  { cfg := cfg
    regs := RegFile.resetOf cfg
    cd := { counter := 0, strobe := false, clk := false }
    dv := { counter := 0, strobe := false, clk := false }
    ch := Vector.replicate 8 Channel.reset
    latA := Vector.replicate 8 false
    latB := Vector.replicate 8 false
    busIn := []
    now := 0
    obs := Outputs.reset cfg }

/-- The machine right after reset, in the configuration of the spec's vectors (assumption 1). -/
def State.reset : State := State.resetOf Config.vectors

/-- Configuration time (00_scope.md R8, 60_exceptions.md R241): the machine of a valid configuration. An
invalid one has none: one of the three errors halts configuration, or a constraint of R7 fails
(assumption 25). -/
def State.build (cfg : Config) : Except ConfigError State :=
  match cfg.check with
  | .error e => .error e
  | .ok _ => if cfg.constraints then .ok (State.resetOf cfg) else .error .constraintFails

end Sys2Proof.Machine
end

