-- ==== Sys2Proof/Machine/Operands.lean ====
section
/-! DEFINITION. Operand assembly (30_encoding.md R83): the fields of a crossbar control byte, the
classes of a mode byte, and the operands of one Trigger FSM evaluation. -/

namespace Sys2Proof.Machine

/-- `oe`, bit 7 of a crossbar control byte (R84). -/
def xbarOe (c : Byte) : Bool := c.getLsbD 7
/-- `default`, bit 6 (R84). -/
def xbarDefault (c : Byte) : Bool := c.getLsbD 6
/-- `invert`, bit 5 (R84). -/
def xbarInvert (c : Byte) : Bool := c.getLsbD 5
/-- `select`, bits 4:0, a zero-based index into the input vector (R84). -/
def xbarSelect (c : Byte) : Nat := (c.extractLsb' 0 5).toNat

/-- What a mode byte stands for (R85). -/
inductive Mode where
  | stop
  | idle
  | interval
  | oneShot
  | constant
  /-- none of the five codes -/
  | unmapped
  deriving DecidableEq, Repr

/-- The comparison is on the full byte (R85, D5). -/
def modeOf (m : ModeCodes) (b : Byte) : Mode :=
  if b = m.stop then .stop
  else if b = m.idle then .idle
  else if b = m.interval then .interval
  else if b = m.oneShot then .oneShot
  else if b = m.constant then .constant
  else .unmapped

/-- The operands of one evaluation of a Trigger FSM (42_trigger_fsm.md R161), its own state apart. -/
structure TriggerInputs where
  /-- `tick := dv.strobe` -/
  tick : Bool
  /-- `en`, bit k of TRIGGER_ENABLES -/
  en : Bool
  mode : Mode
  /-- `n`, the Interval byte -/
  n : Byte
  /-- `d`, the Duration byte -/
  d : Byte
  /-- `p`, the Phase byte -/
  p : Byte
  deriving DecidableEq, Repr

/-- The operands of channel `k` in a state whose register file is the post-write one (R161, R190). -/
def State.triggerInputs (s : State) (k : Fin 8) : TriggerInputs :=
  { tick := s.dv.strobe
    en := s.regs.triggerEnables.getLsbD k.val
    mode := modeOf s.cfg.modes s.regs.mode[k]
    n := s.regs.interval[k]
    d := s.regs.duration[k]
    p := s.regs.phase[k] }

/-- The crossbar input vector of the current cycle at an index (44_crossbar.md R205), none at or above
`N_IN`. -/
def State.input (s : State) (j : Nat) : Option Bool :=
  s.cfg.xbarInputs[j]?.map (fun k => s.ch[k].out)

end Sys2Proof.Machine
end

