-- ==== Sys2Proof/Machine/Flags.lean ====
section
/-! DEFINITION. The one-bit conditions of the components. The block has no condition codes (10_state.md
R28): these are its status bits' next values and the tests the Trigger FSM's steps make. -/

namespace Sys2Proof.Machine

/-- The base strobe of the next cycle: raised when the ClockDivider's counter is 0
(41_clock_dividers.md R141). -/
def ClockDivider.strobeNext (cd : ClockDivider) : Bool := decide (cd.counter = 0)

/-- The Divider rolls over in a cycle with `up = 1` and `dv.counter = 0` (R143). -/
def Divider.rollsOver (dv : Divider) (up : Bool) : Bool := up && decide (dv.counter = 0)

/-- The wall tick of the next cycle: a roll-over raises it, and the force-low has priority over the raise
(R143, D9). -/
def Divider.strobeNext (dv : Divider) (up : Bool) : Bool := dv.rollsOver up && !dv.strobe

/-- Step 1 applies: a wall tick finds the channel disabled (42_trigger_fsm.md R164). -/
def TriggerInputs.disables (x : TriggerInputs) : Bool := x.tick && !x.en

/-- The strobe-gated steps 2, 3 and 5 run: a wall tick finds the channel enabled (R165 to R172). -/
def TriggerInputs.gated (x : TriggerInputs) : Bool := x.tick && x.en

/-- Interval mode acts only if `d ≠ 0` and `n ≠ 0` (R167). -/
def TriggerInputs.intervalActs (x : TriggerInputs) : Bool := decide (x.d ≠ 0) && decide (x.n ≠ 0)

/-- A pulse in progress has reached its end (R170). -/
def Channel.expired (c : Channel) : Bool := c.out && decide (c.dc = 0)

end Sys2Proof.Machine
end

