-- ==== Sys2Proof/Machine/Controller.lean ====
section
/-! DEFINITION. The TriggerController's self-clearing step (43_trigger_controller.md). -/

namespace Sys2Proof.Machine

/-- TriggerController step (R191): the value MODE(k) holds in the next cycle, from the wall tick, the
post-write mode byte and the registered output. The comparisons are on the full byte (R192) and the
enable bit is not consulted (D34). -/
def modeNext (m : ModeCodes) (tick : Bool) (mode : Byte) (out : Bool) : Byte :=
  if tick then
    if mode = m.oneShot ∧ out = true then m.idle else mode
  else
    if mode = m.idle ∧ out = false then m.stop else mode

end Sys2Proof.Machine
end

