-- ==== Sys2Proof/Machine/Crossbar.lean ====
section
/-! DEFINITION. The crossbar cells and the ResetController (44_crossbar.md). -/

namespace Sys2Proof.Machine

/-- Crossbar latch step (R201) for the cell with number `cell` (0 to 7 for A, 8 to 15 for B) and
post-write control byte `c`. A select at or above `N_IN` latches a fresh unspecified bit (R203). -/
def State.latchNext (s : State) (cell : Nat) (c : Byte) : Bool :=
  match s.input (xbarSelect c) with
  | some b => b
  | none => Config.xbarOor s.now cell

/-- Crossbar output function (R202), combinational in the control byte and the latched bit. -/
def xbarOut (c : Byte) (lat : Bool) : Bool :=
  if xbarOe c then (if xbarInvert c then !lat else lat) else xbarDefault c

/-- `XA[i]` of a cycle whose register file is the post-write one. -/
def State.xa (s : State) (i : Fin 8) : Bool := xbarOut s.regs.xbarA[i] s.latA[i]

/-- `XB[i]` of a cycle whose register file is the post-write one. -/
def State.xb (s : State) (i : Fin 8) : Bool := xbarOut s.regs.xbarB[i] s.latB[i]

/-- The reset lines `RST[i] := x[RESET_MASK_ADDR][i]`, when the ResetController is present (R208). -/
def State.rst (s : State) : Option (Vector Bool 8) :=
  s.cfg.resetMaskAddr.map (fun _ => Vector.ofFn fun i => s.regs.resetMask.getLsbD i.val)

end Sys2Proof.Machine
end

