-- ==== Sys2Proof/Machine/Dividers.lean ====
section
/-! DEFINITION. The clock-divider chain (41_clock_dividers.md): one cycle of the ClockDivider and of the
Divider. -/

namespace Sys2Proof.Machine

/-- ClockDivider step (R141); `period` is CLKDIV_MAX_PERIOD. -/
def ClockDivider.next (period : Nat) (cd : ClockDivider) : ClockDivider :=
  if cd.counter = 0 then
    { counter := period - 1, strobe := cd.strobeNext, clk := !cd.clk }
  else
    { counter := cd.counter - 1, strobe := cd.strobeNext, clk := cd.clk }

/-- Divider step (R143); `up` is the base strobe of the cycle and `period` the post-write byte of
CLOCK_DIVIDER, read only at a reload (R144). -/
def Divider.next (up : Bool) (period : Byte) (dv : Divider) : Divider :=
  { counter :=
      if dv.rollsOver up then sub8 period 1
      else if up then dv.counter - 1
      else dv.counter
    strobe := dv.strobeNext up
    clk := if dv.rollsOver up then !dv.clk else dv.clk }

end Sys2Proof.Machine
end

