-- ==== Sys2Proof/Machine/Trigger.lean ====
section
/-! DEFINITION. The per-channel Trigger FSM (42_trigger_fsm.md): the five steps as partial assignments,
their merge, and the next state. Every step reads only current values (R162). -/

namespace Sys2Proof.Machine

/-- A partial assignment to a channel's state (00_scope.md R13): `none` where the variable is not
assigned. -/
structure Assign where
  es : Option ExecState := none
  ic : Option Byte := none
  dc : Option Byte := none
  pc : Option Byte := none
  out : Option Bool := none
  deriving DecidableEq, Repr

/-- The merge of one variable's writes, listed in the order of the steps (R163). -/
def pick {α : Type} (policy : ConflictPolicy) (writes : List (Option α)) : Option α :=
  match policy with
  | .earlierWins => (writes.filterMap id).head?
  | .laterWins => (writes.filterMap id).getLast?

/-- The merge of the steps' partial assignments, variable by variable (R163). -/
def merge (policy : ConflictPolicy) (ws : List Assign) : Assign :=
  { es := pick policy (ws.map Assign.es)
    ic := pick policy (ws.map Assign.ic)
    dc := pick policy (ws.map Assign.dc)
    pc := pick policy (ws.map Assign.pc)
    out := pick policy (ws.map Assign.out) }

/-- The synchronous commit of a partial assignment: a variable it does not assign keeps its value
(00_scope.md R12, R13). -/
def Channel.commit (c : Channel) (a : Assign) : Channel :=
  { es := a.es.getD c.es
    ic := a.ic.getD c.ic
    dc := a.dc.getD c.dc
    pc := a.pc.getD c.pc
    out := a.out.getD c.out }

/-- Step 1, disable: `dc` is left untouched (R164). -/
def step1 : Assign := { out := some false, es := some .off, ic := some 0, pc := some 0 }

/-- Step 2, mode Interval (R167). -/
def step2Interval (x : TriggerInputs) (c : Channel) : Assign :=
  if x.intervalActs then
    if c.ic = 0 then { dc := some (x.d - 1), es := some .init, ic := some (x.n - 1) }
    else { ic := some (c.ic - 1) }
  else {}

/-- Step 2, mode OneShot (R168). -/
def step2OneShot (x : TriggerInputs) (c : Channel) : Assign :=
  if x.d ≠ 0 ∧ c.es = .off then { dc := some (x.d - 1), es := some .init } else {}

/-- Step 2, mode Constant (R169). -/
def step2Constant (c : Channel) : Assign :=
  if c.es = .off then { es := some .init } else {}

/-- Step 2, dispatch on the mode (R165 to R169): every unmapped mode acts as Idle (R166). -/
def step2 (x : TriggerInputs) (c : Channel) : Assign :=
  match x.mode with
  | .stop => { out := some false, es := some .off }
  | .idle => {}
  | .unmapped => {}
  | .interval => step2Interval x c
  | .oneShot => step2OneShot x c
  | .constant => step2Constant c

/-- Step 3, duration countdown, in every mode but Constant (R170). -/
def step3 (x : TriggerInputs) (c : Channel) : Assign :=
  if x.mode = .constant then {}
  else if c.expired then { out := some false, es := some .off }
  else if c.out then { dc := some (c.dc - 1) }
  else {}

/-- Step 4, phase resolution, at every clock edge (R171, D13). -/
def step4 (x : TriggerInputs) (c : Channel) : Assign :=
  if c.es = .init then
    if x.p = 0 then { out := some true, es := some .active }
    else { pc := some (x.p - 1), es := some .wait }
  else {}

/-- Step 5, phase countdown, in every mode (R172). -/
def step5 (c : Channel) : Assign :=
  if c.es = .wait then
    if c.pc = 0 then { out := some true, es := some .active }
    else { pc := some (c.pc - 1) }
  else {}

/-- A step that runs only at a wall tick which finds the channel enabled. -/
def gate (g : Bool) (a : Assign) : Assign := if g then a else {}

/-- The channel's whole assignment at an edge (R173): the disable step applies alone (R164, D12). -/
def Channel.assignment (policy : ConflictPolicy) (x : TriggerInputs) (c : Channel) : Assign :=
  if x.disables then step1
  else merge policy
    [gate x.gated (step2 x c), gate x.gated (step3 x c), step4 x c, gate x.gated (step5 c)]

/-- Trigger step (R173). -/
def Channel.next (policy : ConflictPolicy) (x : TriggerInputs) (c : Channel) : Channel :=
  c.commit (c.assignment policy x)

end Sys2Proof.Machine
end

