-- ==== Sys2Proof/Machine/Ops.lean ====
section
/-! DEFINITION. The operations on the register file (40_register_file_bus_ops.md), the bus input, and
the clock cycle of the whole block (45_cycle_composition.md). There is no exception to take and none to
return from: the block has no trap mechanism (60_exceptions.md R245). -/

namespace Sys2Proof.Machine

/-- A run of the meanings answers with one of Host.Core's outcomes. -/
abbrev Result := Host.Outcome State Fault Refusal

/-- The byte a register holds (00_scope.md R11). The RO registers are configuration constants
(10_state.md R22). -/
def RegFile.read (cfg : Config) (f : RegFile) : Reg → Byte
  | .productId j => cfg.productId[j]
  | .hwRevision => cfg.hwRev
  | .gwRevision => cfg.gwRev
  | .cameraCount => cfg.cameraCount
  | .gpioCount => cfg.gpioCount
  | .triggerCount => cfg.triggerCount
  | .clockDivider => f.clockDivider
  | .powerControl => f.powerControl
  | .xbarA i => f.xbarA[i]
  | .xbarB i => f.xbarB[i]
  | .triggerEnables => f.triggerEnables
  | .mode k => f.mode[k]
  | .interval k => f.interval[k]
  | .duration k => f.duration[k]
  | .phase k => f.phase[k]
  | .resetMask => f.resetMask

/-- The register file after a write of a register: an RW register takes all eight bits (R112), an RO
register ignores the write (R114). -/
def RegFile.write (f : RegFile) (v : Byte) : Reg → RegFile
  | .productId _ | .hwRevision | .gwRevision | .cameraCount | .gpioCount | .triggerCount => f
  | .clockDivider => { f with clockDivider := v }
  | .powerControl => { f with powerControl := v }
  | .xbarA i => { f with xbarA := f.xbarA.set i v }
  | .xbarB i => { f with xbarB := f.xbarB.set i v }
  | .triggerEnables => { f with triggerEnables := v }
  | .mode k => { f with mode := f.mode.set k v }
  | .interval k => { f with interval := f.interval.set k v }
  | .duration k => { f with duration := f.duration.set k v }
  | .phase k => { f with phase := f.phase.set k v }
  | .resetMask => { f with resetMask := v }

/-- `x[a]`: the byte currently held at a bus address (00_scope.md R11), none where it is unmapped. -/
def State.x (s : State) (a : Byte) : Option Byte :=
  (s.cfg.regAt a).map (s.regs.read s.cfg)

/-- The byte that a read of an unmapped address returns in this cycle: a draw (R113). -/
def State.unmappedByte (s : State) : Byte := Config.unmappedRead s.now

/-- The byte that a read of a register returns (R111). A register the configuration does not have is
unmapped (R113). -/
def State.readReg (s : State) (r : Reg) : Byte :=
  if r.present s.cfg then s.regs.read s.cfg r else s.unmappedByte

/-- The state after the bus write of a register (R112, R114). A write of a register the configuration
does not have is discarded (R113). -/
def State.writeReg (s : State) (r : Reg) (v : Byte) : State :=
  if r.present s.cfg then { s with regs := s.regs.write v r } else s

/-- Phases C and S of a cycle (R220, R223), from the state with the post-write register file and the read
data of the cycle. Every line reads current values only (R221), and all next values are committed
together. A channel slot with `k ≥ N_TRIG` keeps its value. -/
def State.cycle (s : State) (result : Option Byte) : State :=
  { s with
    regs := { s.regs with
      mode := Vector.ofFn fun k =>
        if k.val < s.cfg.nTrig then modeNext s.cfg.modes s.dv.strobe s.regs.mode[k] s.ch[k].out
        else s.regs.mode[k] }
    cd := s.cd.next s.cfg.clkdivMaxPeriod
    dv := s.dv.next s.cd.strobe s.regs.clockDivider
    ch := Vector.ofFn fun k =>
      if k.val < s.cfg.nTrig then s.ch[k].next s.cfg.policy (s.triggerInputs k) else s.ch[k]
    latA := Vector.ofFn fun i => s.latchNext i.val s.regs.xbarA[i]
    latB := Vector.ofFn fun i => s.latchNext (8 + i.val) s.regs.xbarB[i]
    now := s.now + 1
    obs :=
      { result := result
        xa := Vector.ofFn s.xa
        xb := Vector.ofFn s.xb
        rst := s.rst } }

/-- A cycle with no bus operation (R130). -/
def idleCycle (s : State) : Result := .next (s.cycle none)

/-- A cycle with the bus read of a register (R111): no state change but the cycle's own. -/
def readCycle (r : Reg) (s : State) : Result := .next (s.cycle (some (s.readReg r)))

/-- A cycle with the bus write of a register: the write is applied first (R112, R220). -/
def writeCycle (r : Reg) (v : Byte) (s : State) : Result := .next ((s.writeReg r v).cycle none)

/-- A cycle with a bus read at an address that no row but the fallback selects: the reset mask register
where it is mapped there (R131), else a draw (R113). -/
def fallbackReadCycle (a : Byte) (s : State) : Result :=
  match s.cfg.regAt a with
  | some r => readCycle r s
  | none => .next (s.cycle (some s.unmappedByte))

/-- A cycle with a bus write at an address that no row but the fallback selects: the reset mask register
where it is mapped there (R131), else discarded (R113). -/
def fallbackWriteCycle (a : Byte) (v : Byte) (s : State) : Result :=
  match s.cfg.regAt a with
  | some r => writeCycle r v s
  | none => idleCycle s

/-- The bus input word of the current cycle: the next word of the stream, or NOP when the stream has no
word left (R80, R110; assumption 3). -/
def State.busNow (s : State) : BusWord := s.busIn.headD 0x00000

/-- The state with the current cycle's bus input word taken from the stream. -/
def State.takeWord (s : State) : State := { s with busIn := s.busIn.tail }

/-- The state with a word put where the next cycle takes its bus input word from. -/
def State.putWord (s : State) (w : BusWord) : State := { s with busIn := w :: s.busIn.tail }

end Sys2Proof.Machine
end

