-- ==== Sys2Proof/Machine/BusControl.lean ====
section
/-! DEFINITION. Bus operations on the control registers (40_register_file_bus_ops.md R121, R122, R125) and the cycle with no operation (R130). -/

namespace Sys2Proof.Machine

/-- NOP (R130): phase W does nothing, the rest of the cycle runs as always. -/
def execNop (s : State) : Result := idleCycle s

/-- RD.CLOCK_DIVIDER (R121, R111). -/
def execRdClockDivider (s : State) : Result := readCycle .clockDivider s

/-- WR.CLOCK_DIVIDER (R121, R112). -/
def execWrClockDivider (v : Byte) (s : State) : Result := writeCycle .clockDivider v s

/-- RD.POWER_CONTROL (R122, R111). -/
def execRdPowerControl (s : State) : Result := readCycle .powerControl s

/-- WR.POWER_CONTROL (R122, R112). -/
def execWrPowerControl (v : Byte) (s : State) : Result := writeCycle .powerControl v s

/-- RD.TRIGGER_ENABLES (R125, R111). -/
def execRdTriggerEnables (s : State) : Result := readCycle .triggerEnables s

/-- WR.TRIGGER_ENABLES (R125, R112). -/
def execWrTriggerEnables (v : Byte) (s : State) : Result := writeCycle .triggerEnables v s

end Sys2Proof.Machine
end

