-- ==== Sys2Proof/Machine/BusCrossbar.lean ====
section
/-! DEFINITION. Bus operations on the crossbar control registers (40_register_file_bus_ops.md R123, R124). -/

namespace Sys2Proof.Machine

/-- RD.XBAR_A (R123, R111). -/
def execRdXbarA (i : Fin 8) (s : State) : Result := readCycle (.xbarA i) s

/-- WR.XBAR_A (R123, R112). -/
def execWrXbarA (i : Fin 8) (v : Byte) (s : State) : Result := writeCycle (.xbarA i) v s

/-- RD.XBAR_B (R124, R111). -/
def execRdXbarB (i : Fin 8) (s : State) : Result := readCycle (.xbarB i) s

/-- WR.XBAR_B (R124, R112). -/
def execWrXbarB (i : Fin 8) (v : Byte) (s : State) : Result := writeCycle (.xbarB i) v s

end Sys2Proof.Machine
end

