-- ==== Sys2Proof/Machine/BusIdent.lean ====
section
/-! DEFINITION. Bus operations on the identification registers (40_register_file_bus_ops.md R115 to R120): RO, so every write is ignored (R114). -/

namespace Sys2Proof.Machine

/-- RD.PRODUCT_ID (R115, R111). -/
def execRdProductId (j : Fin 6) (s : State) : Result := readCycle (.productId j) s

/-- WR.PRODUCT_ID (R115, R114: ignored). -/
def execWrProductId (j : Fin 6) (v : Byte) (s : State) : Result := writeCycle (.productId j) v s

/-- RD.HW_REVISION (R116, R111). -/
def execRdHwRevision (s : State) : Result := readCycle .hwRevision s

/-- WR.HW_REVISION (R116, R114: ignored). -/
def execWrHwRevision (v : Byte) (s : State) : Result := writeCycle .hwRevision v s

/-- RD.GW_REVISION (R117, R111). -/
def execRdGwRevision (s : State) : Result := readCycle .gwRevision s

/-- WR.GW_REVISION (R117, R114: ignored). -/
def execWrGwRevision (v : Byte) (s : State) : Result := writeCycle .gwRevision v s

/-- RD.CAMERA_COUNT (R118, R111). -/
def execRdCameraCount (s : State) : Result := readCycle .cameraCount s

/-- WR.CAMERA_COUNT (R118, R114: ignored). -/
def execWrCameraCount (v : Byte) (s : State) : Result := writeCycle .cameraCount v s

/-- RD.GPIO_COUNT (R119, R111). -/
def execRdGpioCount (s : State) : Result := readCycle .gpioCount s

/-- WR.GPIO_COUNT (R119, R114: ignored). -/
def execWrGpioCount (v : Byte) (s : State) : Result := writeCycle .gpioCount v s

/-- RD.TRIGGER_COUNT (R120, R111). -/
def execRdTriggerCount (s : State) : Result := readCycle .triggerCount s

/-- WR.TRIGGER_COUNT (R120, R114: ignored). -/
def execWrTriggerCount (v : Byte) (s : State) : Result := writeCycle .triggerCount v s

end Sys2Proof.Machine
end

