-- ==== Sys2Proof/Machine/BusTrigger.lean ====
section
/-! DEFINITION. Bus operations on a channel's four registers (40_register_file_bus_ops.md R126 to R129). -/

namespace Sys2Proof.Machine

/-- RD.TRIG_MODE (R126, R111). -/
def execRdTrigMode (k : Fin 8) (s : State) : Result := readCycle (.mode k) s

/-- WR.TRIG_MODE (R126, R112). -/
def execWrTrigMode (k : Fin 8) (v : Byte) (s : State) : Result := writeCycle (.mode k) v s

/-- RD.TRIG_INTERVAL (R127, R111). -/
def execRdTrigInterval (k : Fin 8) (s : State) : Result := readCycle (.interval k) s

/-- WR.TRIG_INTERVAL (R127, R112). -/
def execWrTrigInterval (k : Fin 8) (v : Byte) (s : State) : Result := writeCycle (.interval k) v s

/-- RD.TRIG_DURATION (R128, R111). -/
def execRdTrigDuration (k : Fin 8) (s : State) : Result := readCycle (.duration k) s

/-- WR.TRIG_DURATION (R128, R112). -/
def execWrTrigDuration (k : Fin 8) (v : Byte) (s : State) : Result := writeCycle (.duration k) v s

/-- RD.TRIG_PHASE (R129, R111). -/
def execRdTrigPhase (k : Fin 8) (s : State) : Result := readCycle (.phase k) s

/-- WR.TRIG_PHASE (R129, R112). -/
def execWrTrigPhase (k : Fin 8) (v : Byte) (s : State) : Result := writeCycle (.phase k) v s

end Sys2Proof.Machine
end

