-- ==== Sys2Proof/Machine/BusUnmapped.lean ====
section
/-! DEFINITION. Bus operations of the two fallback rows (40_register_file_bus_ops.md R113), which also
carry the reset mask register where the ResetController is present (R131, which gives it no row). -/

namespace Sys2Proof.Machine

/-- RD.UNMAPPED (R113, R131). -/
def execRdUnmapped (a : Byte) (s : State) : Result := fallbackReadCycle a s

/-- WR.UNMAPPED (R113, R131). -/
def execWrUnmapped (a : Byte) (v : Byte) (s : State) : Result := fallbackWriteCycle a v s

end Sys2Proof.Machine
end

