-- ==== Sys2Proof/Machine/Dispatch.lean ====
section
/-! DEFINITION. The dispatch: one arm per bus operation, in the order of spec/opcode_table.json. -/

namespace Sys2Proof.Machine

/-- One core cycle in which the given bus operation is presented (45_cycle_composition.md R223). -/
def exec (i : Instr) (s : State) : Host.Outcome State Fault Refusal :=
  match i with
  | .nop => Sys2Proof.Machine.execNop s
  | .rdProductId j => Sys2Proof.Machine.execRdProductId j s
  | .wrProductId j v => Sys2Proof.Machine.execWrProductId j v s
  | .rdHwRevision => Sys2Proof.Machine.execRdHwRevision s
  | .wrHwRevision v => Sys2Proof.Machine.execWrHwRevision v s
  | .rdGwRevision => Sys2Proof.Machine.execRdGwRevision s
  | .wrGwRevision v => Sys2Proof.Machine.execWrGwRevision v s
  | .rdCameraCount => Sys2Proof.Machine.execRdCameraCount s
  | .wrCameraCount v => Sys2Proof.Machine.execWrCameraCount v s
  | .rdGpioCount => Sys2Proof.Machine.execRdGpioCount s
  | .wrGpioCount v => Sys2Proof.Machine.execWrGpioCount v s
  | .rdTriggerCount => Sys2Proof.Machine.execRdTriggerCount s
  | .wrTriggerCount v => Sys2Proof.Machine.execWrTriggerCount v s
  | .rdClockDivider => Sys2Proof.Machine.execRdClockDivider s
  | .wrClockDivider v => Sys2Proof.Machine.execWrClockDivider v s
  | .rdPowerControl => Sys2Proof.Machine.execRdPowerControl s
  | .wrPowerControl v => Sys2Proof.Machine.execWrPowerControl v s
  | .rdXbarA c => Sys2Proof.Machine.execRdXbarA c s
  | .wrXbarA c v => Sys2Proof.Machine.execWrXbarA c v s
  | .rdXbarB c => Sys2Proof.Machine.execRdXbarB c s
  | .wrXbarB c v => Sys2Proof.Machine.execWrXbarB c v s
  | .rdTriggerEnables => Sys2Proof.Machine.execRdTriggerEnables s
  | .wrTriggerEnables v => Sys2Proof.Machine.execWrTriggerEnables v s
  | .rdTrigMode k => Sys2Proof.Machine.execRdTrigMode k s
  | .wrTrigMode k v => Sys2Proof.Machine.execWrTrigMode k v s
  | .rdTrigInterval k => Sys2Proof.Machine.execRdTrigInterval k s
  | .wrTrigInterval k v => Sys2Proof.Machine.execWrTrigInterval k v s
  | .rdTrigDuration k => Sys2Proof.Machine.execRdTrigDuration k s
  | .wrTrigDuration k v => Sys2Proof.Machine.execWrTrigDuration k v s
  | .rdTrigPhase k => Sys2Proof.Machine.execRdTrigPhase k s
  | .wrTrigPhase k v => Sys2Proof.Machine.execWrTrigPhase k v s
  | .rdUnmapped a => Sys2Proof.Machine.execRdUnmapped a s
  | .wrUnmapped a v => Sys2Proof.Machine.execWrUnmapped a v s

end Sys2Proof.Machine
end

