-- ==== Sys2Proof/Machine/Step.lean ====
section
/-! DEFINITION. One core clock cycle: the block takes the cycle's bus input word from the transport,
decodes it and runs the cycle (45_cycle_composition.md R223). -/

namespace Sys2Proof.Machine

/-- One core cycle (00_scope.md R9): the bus input word of the cycle is taken from the stream, decoded
(30_encoding.md R81) and run. -/
def step (s : State) : Host.Outcome State Fault Refusal :=
  exec (decode s.cfg s.busNow) s.takeWord

/-- The state with the given word placed where `step` takes its next bus input word from: the head of the
stream (assumption 3). `w` has its bits numbered as the opcode table numbers them, and its bits
`nbits` and above are 0. -/
def State.withFetchWord (s : State) (nbits w : Nat) : State :=
  s.putWord (BitVec.ofNat 18 (w % 2 ^ nbits))

end Sys2Proof.Machine
end

