-- ==== Sys2Proof/Safety.lean ====
section
/-! DEFINITION. The terms in which claims speak of the block: the register file after phase W of a
cycle, what a read returns, runs counted in cycles and in wall ticks, and the invariants of
10_state.md R35. Nothing here is used by the machine. -/

namespace Sys2Proof.Machine

/-- The state with the post-write register file of a cycle in which `i` is presented (R220, phase W). -/
def State.afterBus (s : State) : Instr → State
  | .wrClockDivider v => { s with regs := { s.regs with clockDivider := v } }
  | .wrPowerControl v => { s with regs := { s.regs with powerControl := v } }
  | .wrXbarA i v => { s with regs := { s.regs with xbarA := s.regs.xbarA.set i v } }
  | .wrXbarB i v => { s with regs := { s.regs with xbarB := s.regs.xbarB.set i v } }
  | .wrTriggerEnables v => { s with regs := { s.regs with triggerEnables := v } }
  | .wrTrigMode k v => { s with regs := { s.regs with mode := s.regs.mode.set k v } }
  | .wrTrigInterval k v => { s with regs := { s.regs with interval := s.regs.interval.set k v } }
  | .wrTrigDuration k v => { s with regs := { s.regs with duration := s.regs.duration.set k v } }
  | .wrTrigPhase k v => { s with regs := { s.regs with phase := s.regs.phase.set k v } }
  | .wrUnmapped a v =>
    if s.cfg.resetMaskAddr = some a then { s with regs := { s.regs with resetMask := v } } else s
  | .nop => s
  | .wrProductId _ _ | .wrHwRevision _ | .wrGwRevision _ | .wrCameraCount _ | .wrGpioCount _
  | .wrTriggerCount _ => s
  | .rdProductId _ | .rdHwRevision | .rdGwRevision | .rdCameraCount | .rdGpioCount
  | .rdTriggerCount | .rdClockDivider | .rdPowerControl | .rdXbarA _ | .rdXbarB _
  | .rdTriggerEnables | .rdTrigMode _ | .rdTrigInterval _ | .rdTrigDuration _
  | .rdTrigPhase _ | .rdUnmapped _ => s

/-- The read data of a cycle in which `i` is presented in state `s` (R111, R113), none unless `i` is a
read. -/
def State.readResult (s : State) : Instr → Option Byte
  | .rdProductId j => some s.cfg.productId[j]
  | .rdHwRevision => some s.cfg.hwRev
  | .rdGwRevision => some s.cfg.gwRev
  | .rdCameraCount => some s.cfg.cameraCount
  | .rdGpioCount => some s.cfg.gpioCount
  | .rdTriggerCount => some s.cfg.triggerCount
  | .rdClockDivider => some s.regs.clockDivider
  | .rdPowerControl => some s.regs.powerControl
  | .rdXbarA i => some s.regs.xbarA[i]
  | .rdXbarB i => some s.regs.xbarB[i]
  | .rdTriggerEnables => some s.regs.triggerEnables
  | .rdTrigMode k => some s.regs.mode[k]
  | .rdTrigInterval k => some s.regs.interval[k]
  | .rdTrigDuration k => some s.regs.duration[k]
  | .rdTrigPhase k => some s.regs.phase[k]
  | .rdUnmapped a =>
    some (if s.cfg.resetMaskAddr = some a then s.regs.resetMask else s.unmappedByte)
  | .nop => none
  | .wrProductId _ _ | .wrHwRevision _ | .wrGwRevision _ | .wrCameraCount _ | .wrGpioCount _
  | .wrTriggerCount _ | .wrClockDivider _ | .wrPowerControl _ | .wrXbarA _ _ | .wrXbarB _ _
  | .wrTriggerEnables _ | .wrTrigMode _ _ | .wrTrigInterval _ _ | .wrTrigDuration _ _
  | .wrTrigPhase _ _ | .wrUnmapped _ _ => none

/-- The operation `i` in state `s` runs, and does exactly what a cycle with no bus operation does, but
that the byte `b` is returned. -/
def ReadsAs (i : Instr) (s : State) (b : Byte) : Prop :=
  ∃ t u, exec i s = .next t ∧ exec .nop s = .next u
    ∧ t = { u with obs := { u.obs with result := some b } }

/-- The operation `i` in state `s` runs, and does exactly what a cycle with no bus operation does in
state `p`. -/
def ActsAsNopIn (i : Instr) (s p : State) : Prop :=
  ∃ t, exec i s = .next t ∧ exec .nop p = .next t

/-- Whenever `i` is presented in `s` it runs, and the Trigger FSM of channel `k` goes from its state `c`
with the operands `x` of the cycle to a state `c'` as `Q x c c'` says. -/
def OnChannel (i : Instr) (s : State) (k : Fin 8) (Q : TriggerInputs → Channel → Channel → Prop) : Prop :=
  ∃ t, exec i s = .next t ∧ Q ((s.afterBus i).triggerInputs k) s.ch[k] t.ch[k]

/-- The arming condition of Interval mode (42_trigger_fsm.md R167, R175). -/
abbrev TriggerInputs.Arms (x : TriggerInputs) (c : Channel) : Prop :=
  x.mode = .interval ∧ x.d ≠ 0 ∧ x.n ≠ 0 ∧ c.ic = 0

/-- The phase delay expires at this wall tick (R172). -/
abbrev Channel.PhaseEnds (c : Channel) : Prop := c.es = .wait ∧ c.pc = 0

/-- The pulse in progress ends at this wall tick (R170). -/
abbrev Channel.PulseEnds (c : Channel) : Prop := c.out = true ∧ c.dc = 0

/-- `n` core cycles from a state. -/
abbrev runCycles (n : Nat) (s : State) : Result := Sys2Proof.core.run n s

/-- The number of wall ticks among the first `n` cycles from a state (R32). -/
def wallTicks : Nat → State → Nat
  | 0, _ => 0
  | n + 1, s =>
    (if s.dv.strobe then 1 else 0) + (match step s with
      | .next t => wallTicks n t
      | .fault _ => 0
      | .refused _ => 0)

/-- The machine of a configuration right after reset, with a stream of bus input words to come. -/
def startWith (cfg : Config) (ws : List BusWord) : State := { State.resetOf cfg with busIn := ws }

/-- Whether a bus input word writes the register at an address. -/
def wordWrites (w : BusWord) (a : Byte) : Bool := w.valid && w.rw && decide (w.addr = a)

/-- The period of the Divider in base strobes: 0 stands for 256 (41_clock_dividers.md R145). -/
def periodOf (b : Byte) : Nat := if b = 0 then 256 else b.toNat

/-- The invariants of one channel: R35 (c), R35 (d), and the largest counter value of R180. -/
structure Channel.Inv (tick : Bool) (c : Channel) : Prop where
  /-- `es = Off` implies `out = 0` -/
  offLow : c.es = .off → c.out = false
  /-- `es = Init` never coincides with a wall tick -/
  initOffTick : c.es = .init → tick = false
  /-- no counter is above 254 -/
  icMax : c.ic.toNat ≤ 254
  dcMax : c.dc.toNat ≤ 254
  pcMax : c.pc.toNat ≤ 254

/-- The invariants of 10_state.md R35 that speak of one state, for the ClockDivider and for every
channel the configuration has. -/
structure State.Inv (s : State) : Prop where
  /-- R35 (a) -/
  cdCounter : s.cd.counter ≤ s.cfg.clkdivMaxPeriod - 1
  /-- R35 (c), (d), R180 -/
  channels : ∀ k : Fin 8, k.val < s.cfg.nTrig → s.ch[k].Inv s.dv.strobe

end Sys2Proof.Machine
end

