-- ==== Sys2Proof/Certificates/Slice0/Obligations.lean ====
section
/-! DEFINITION. The statements for the provers, each a def Obligations.<Name> : Prop whose docstring cites
what of spec/ it formalises. The terms they use beyond the machine's own are in Sys2Proof/Safety.lean. -/

open Sys2Proof Sys2Proof.Machine

/-! ### Encoding (30_encoding.md) -/

/-- Decode and encode agree: for every operation that some word decodes to, with every operand, decoding
its canonical word gives the operation back (30_encoding.md section 1 and 2). -/
def Obligations.DecodeOfEncodeIsTheOperation : Prop :=
  ∀ (cfg : Config) (i : Instr), i.wellFormed cfg = true → decode cfg (encode i) = i

/-- Each word has one meaning: encoding what a word decodes to gives the word back, its ignored bits
cleared (30_encoding.md section 6). -/
def Obligations.EncodeOfDecodeIsTheCanonicalWord : Prop :=
  ∀ (cfg : Config) (w : BusWord), encode (decode cfg w) = w.canonical

/-- R81: the decode looks at `valid`, then at the address, then at `rw`; every word selects exactly one
row of the opcode table, the decoded operation's, and no word is illegal or traps. -/
def Obligations.EveryWordSelectsExactlyItsRow : Prop :=
  ∀ (cfg : Config) (w : BusWord),
    (w.valid = false → decode cfg w = .nop)
    ∧ (w.valid = true → ∀ r, cfg.fixedRegAt w.addr = some r →
        decode cfg w = if w.rw then r.writeInstr w.addr w.data else r.readInstr w.addr)
    ∧ (w.valid = true → cfg.fixedRegAt w.addr = none →
        decode cfg w = if w.rw then .wrUnmapped w.addr w.data else .rdUnmapped w.addr)
    ∧ selectedRows cfg w = [(decode cfg w).mnemonic]
    ∧ ∀ s : State, ∃ t, exec (decode cfg w) s = .next t

/-- The worked encodings of 30_encoding.md section 6, written out there bit by bit, decode to the
operations they stand for. -/
def Obligations.WorkedEncodingsDecode : Prop :=
  ∀ cfg : Config, 1 ≤ cfg.nTrig →
    decode cfg 0b110010000010000010 = .wrXbarA 0 0x82
    ∧ decode cfg 0b100100000000000000 = .rdTrigMode 0
    ∧ decode cfg 0x33C01 = .wrTriggerEnables 0x01
    ∧ decode cfg 0x31404 = .wrClockDivider 0x04
    ∧ decode cfg 0x34003 = .wrTrigMode 0 0x03
    ∧ decode cfg 0x00000 = .nop
    ∧ encode (.wrXbarA 0 0x82) = 0x32082

/-- The address map by the ranges of 20_memory.md section 1: what stands at each of the 256 addresses. -/
def Obligations.AddressMapFollowsTheRanges : Prop :=
  ∀ (cfg : Config) (a : Byte),
    cfg.regAt a =
      let n := a.toNat
      let k : Fin 8 := Fin.ofNat 8 ((n - 0x40) / 8)
      if n ≤ 0x05 then some (.productId (Fin.ofNat 6 n))
      else if n = 0x06 then some .hwRevision
      else if n = 0x07 then some .gwRevision
      else if n = 0x0A then some .cameraCount
      else if n = 0x0B then some .gpioCount
      else if n = 0x0C then some .triggerCount
      else if n = 0x14 then some .clockDivider
      else if n = 0x15 then some .powerControl
      else if 0x20 ≤ n ∧ n ≤ 0x27 then some (.xbarA (Fin.ofNat 8 (n - 0x20)))
      else if 0x28 ≤ n ∧ n ≤ 0x2F then some (.xbarB (Fin.ofNat 8 (n - 0x28)))
      else if n = 0x3C then some .triggerEnables
      else if 0x40 ≤ n ∧ n < 0x80 ∧ (n - 0x40) / 8 < cfg.nTrig ∧ (n - 0x40) % 8 = 0 then some (.mode k)
      else if 0x40 ≤ n ∧ n < 0x80 ∧ (n - 0x40) / 8 < cfg.nTrig ∧ (n - 0x40) % 8 = 1 then
        some (.interval k)
      else if 0x40 ≤ n ∧ n < 0x80 ∧ (n - 0x40) / 8 < cfg.nTrig ∧ (n - 0x40) % 8 = 2 then
        some (.duration k)
      else if 0x40 ≤ n ∧ n < 0x80 ∧ (n - 0x40) / 8 < cfg.nTrig ∧ (n - 0x40) % 8 = 3 then
        some (.phase k)
      else if cfg.resetMaskAddr = some a then some .resetMask
      else none

/-- The number of mapped addresses of a valid configuration: `11 + 2 + 16 + 1 + 4 * N_TRIG`, one more
with the ResetController (10_state.md section 1, where the count is marked as derived). -/
def Obligations.MappedRegisterCount : Prop :=
  ∀ cfg : Config, cfg.valid = true →
    ((List.range 256).filter (fun n => (cfg.regAt (BitVec.ofNat 8 n)).isSome)).length =
      11 + 2 + 16 + 1 + 4 * cfg.nTrig + (if cfg.resetMaskAddr.isSome then 1 else 0)

/-! ### Configuration time (60_exceptions.md section 1) -/

/-- Address integrity: a list of requested registers is accepted as it stands when no address is requested
twice, and otherwise the map fails with the address of a collision and nothing is registered. -/
def Obligations.MapFailsExactlyOnACollision : Prop :=
  ∀ reqs : List (Reg × Byte),
    ((reqs.map Prod.snd).Nodup → buildMap [] reqs = .ok reqs)
    ∧ (¬ (reqs.map Prod.snd).Nodup →
        ∃ a, buildMap [] reqs = .error (.duplicateAddress a) ∧ 2 ≤ (reqs.map Prod.snd).count a)

/-- Configuration time (00_scope.md section 3, 60_exceptions.md section 1). A valid configuration is built
into its reset state and an invalid one is an error. With the fixed map, the spec's input vector and the
other constraints of the parameters, only the product code is left to fail: unknown, it is the error, and
a camera count that is not the table's is a constraint that fails. An error that is answered holds of the
configuration. That a failed constraint of the parameters is answered with an error of its own is the
model's choice, and so is which error is answered where several hold, of which no clause says anything
(assumption 25). -/
def Obligations.ConfigurationChecks : Prop :=
  ∀ cfg : Config,
    ((cfg.valid = true → State.build cfg = .ok (State.resetOf cfg))
      ∧ (cfg.valid = false → ∃ e, State.build cfg = .error e))
    ∧ (1 ≤ cfg.nTrig → cfg.nTrig ≤ 8 → 1 ≤ cfg.clkdivMaxPeriod → cfg.modes.distinct = true →
        cfg.resetMaskAddr = none → cfg.xbarInputs = Config.specInputs cfg.nTrig →
        State.build cfg = match cfg.cameraTable.lookup cfg.productId with
          | none => .error (.unknownProductCode cfg.productId)
          | some n =>
            if n = cfg.cameraCount then .ok (State.resetOf cfg) else .error .constraintFails)
    ∧ ∀ e, State.build cfg = .error e → match e with
        | .duplicateAddress a => 2 ≤ (cfg.requests.map Prod.snd).count a
        | .selectTooWide n => n = cfg.nIn ∧ 32 < n
        | .unknownProductCode c => c = cfg.productId ∧ cfg.cameraTable.lookup c = none
        | .constraintFails => cfg.constraints = false

/-! ### The step and the bus operations (40_register_file_bus_ops.md, 45_cycle_composition.md) -/

/-- A step runs the operation decoded from the cycle's bus input word, the head of the stream, NOP when
the stream is empty; the word is taken from the stream (assumption 3 names the stream). -/
def Obligations.StepRunsTheDecodedWord : Prop :=
  (∀ s : State, step s = exec (decode s.cfg (s.busIn.headD 0x00000)) { s with busIn := s.busIn.tail })
  ∧ ∀ (s : State) (w : Nat), w < 2 ^ 18 →
      step (s.withFetchWord 24 w) =
        exec (decode s.cfg (BitVec.ofNat 18 w)) { s with busIn := s.busIn.tail }

/-- One cycle is the pseudocode of 45_cycle_composition.md section 2, written over the addresses of the
register file: the write of phase W, the read data, the outputs (the reset lines among them, 44_crossbar.md
section 4), every component step from one snapshot, and the commit. `b a` is the post-write byte at
address `a`. The clauses on `busIn` and on `now` and the form of the two draws are the model's
(assumptions 3, 4, 5 and 6). -/
def Obligations.StepIsTheWholeCycleByAddress : Prop :=
  ∀ s : State, ∃ t, step s = .next t ∧
    let w := s.busNow
    let rw := (s.cfg.regAt w.addr).any (fun r => r.access = .rw)
    let post : Byte → Option Byte := fun a =>
      if w.valid = true ∧ w.rw = true ∧ rw = true ∧ a = w.addr then some w.data else s.x a
    let b : Byte → Byte := fun a => (post a).getD 0
    let addr : Nat → Nat → Byte := fun base k => BitVec.ofNat 8 (base + k)
    let inputs : Fin 8 → TriggerInputs := fun k =>
      { tick := s.dv.strobe
        en := (b 0x3C).getLsbD k.val
        mode := modeOf s.cfg.modes (b (addr 0x40 (8 * k.val)))
        n := b (addr 0x41 (8 * k.val))
        d := b (addr 0x42 (8 * k.val))
        p := b (addr 0x43 (8 * k.val)) }
    t.obs.result =
        (if w.valid = true ∧ w.rw = false then some ((s.x w.addr).getD (Config.unmappedRead s.now))
          else none)
    ∧ (∀ i : Fin 8, t.obs.xa[i] = xbarOut (b (addr 0x20 i.val)) s.latA[i]
        ∧ t.obs.xb[i] = xbarOut (b (addr 0x28 i.val)) s.latB[i])
    ∧ (s.cfg.resetMaskAddr = none → t.obs.rst = none)
    ∧ (∀ a, s.cfg.resetMaskAddr = some a → s.cfg.fixedRegAt a = none →
        ∃ lines, t.obs.rst = some lines ∧ ∀ i : Fin 8, lines[i] = (b a).getLsbD i.val)
    ∧ t.cd = s.cd.next s.cfg.clkdivMaxPeriod
    ∧ t.dv = s.dv.next s.cd.strobe (b 0x14)
    ∧ (∀ k : Fin 8, k.val < s.cfg.nTrig →
        t.ch[k] = s.ch[k].next s.cfg.policy (inputs k)
        ∧ t.x (addr 0x40 (8 * k.val)) =
            some (modeNext s.cfg.modes s.dv.strobe (b (addr 0x40 (8 * k.val))) s.ch[k].out))
    ∧ (∀ a : Byte, (∀ k : Fin 8, k.val < s.cfg.nTrig → a ≠ addr 0x40 (8 * k.val)) → t.x a = post a)
    ∧ (∀ i : Fin 8,
        t.latA[i] = (s.input (xbarSelect (b (addr 0x20 i.val)))).getD (Config.xbarOor s.now i.val)
        ∧ t.latB[i] =
            (s.input (xbarSelect (b (addr 0x28 i.val)))).getD (Config.xbarOor s.now (8 + i.val)))
    ∧ t.cfg = s.cfg ∧ t.busIn = s.busIn.tail ∧ t.now = s.now + 1

/-- The identification registers: a read returns the configuration's constant, a write is ignored
(40_register_file_bus_ops.md section 2). That Trigger Count is N_TRIG is the spec's own decision D18, and
that the six bytes and the counts are parameters is said in assumption 12. -/
def Obligations.IdentificationRegistersReadConstantsIgnoreWrites : Prop :=
  ∀ (s : State) (v : Byte) (j : Fin 6),
    ReadsAs (.rdProductId j) s s.cfg.productId[j] ∧ ActsAsNopIn (.wrProductId j v) s s
    ∧ ReadsAs .rdHwRevision s s.cfg.hwRev ∧ ActsAsNopIn (.wrHwRevision v) s s
    ∧ ReadsAs .rdGwRevision s s.cfg.gwRev ∧ ActsAsNopIn (.wrGwRevision v) s s
    ∧ ReadsAs .rdCameraCount s s.cfg.cameraCount ∧ ActsAsNopIn (.wrCameraCount v) s s
    ∧ ReadsAs .rdGpioCount s s.cfg.gpioCount ∧ ActsAsNopIn (.wrGpioCount v) s s
    ∧ ReadsAs .rdTriggerCount s (BitVec.ofNat 8 s.cfg.nTrig) ∧ ActsAsNopIn (.wrTriggerCount v) s s

/-- The three control registers: a read returns the byte held, and the cycle of a write is a NOP cycle of
the state that holds the written byte, all else unchanged (40_register_file_bus_ops.md section 3). -/
def Obligations.ControlRegistersReadAndWrite : Prop :=
  ∀ (s : State) (v : Byte),
    ReadsAs .rdClockDivider s s.regs.clockDivider
    ∧ ActsAsNopIn (.wrClockDivider v) s { s with regs := { s.regs with clockDivider := v } }
    ∧ ReadsAs .rdPowerControl s s.regs.powerControl
    ∧ ActsAsNopIn (.wrPowerControl v) s { s with regs := { s.regs with powerControl := v } }
    ∧ ReadsAs .rdTriggerEnables s s.regs.triggerEnables
    ∧ ActsAsNopIn (.wrTriggerEnables v) s { s with regs := { s.regs with triggerEnables := v } }

/-- The crossbar control registers of both crossbars: read, and write of cell `i` alone
(40_register_file_bus_ops.md section 3). -/
def Obligations.CrossbarRegistersReadAndWrite : Prop :=
  ∀ (s : State) (i : Fin 8) (v : Byte),
    ReadsAs (.rdXbarA i) s s.regs.xbarA[i]
    ∧ ActsAsNopIn (.wrXbarA i v) s { s with regs := { s.regs with xbarA := s.regs.xbarA.set i v } }
    ∧ ReadsAs (.rdXbarB i) s s.regs.xbarB[i]
    ∧ ActsAsNopIn (.wrXbarB i v) s { s with regs := { s.regs with xbarB := s.regs.xbarB.set i v } }

/-- The four registers of a channel the configuration has: read, and write of channel `k`'s alone
(40_register_file_bus_ops.md section 3). A channel it does not have is unmapped, which
UnmappedAddressReadsADrawAndDiscardsWrites covers by address. -/
def Obligations.ChannelRegistersReadAndWrite : Prop :=
  ∀ (s : State) (k : Fin 8) (v : Byte), k.val < s.cfg.nTrig →
    ReadsAs (.rdTrigMode k) s s.regs.mode[k]
    ∧ ActsAsNopIn (.wrTrigMode k v) s { s with regs := { s.regs with mode := s.regs.mode.set k v } }
    ∧ ReadsAs (.rdTrigInterval k) s s.regs.interval[k]
    ∧ ActsAsNopIn (.wrTrigInterval k v) s
        { s with regs := { s.regs with interval := s.regs.interval.set k v } }
    ∧ ReadsAs (.rdTrigDuration k) s s.regs.duration[k]
    ∧ ActsAsNopIn (.wrTrigDuration k v) s
        { s with regs := { s.regs with duration := s.regs.duration.set k v } }
    ∧ ReadsAs (.rdTrigPhase k) s s.regs.phase[k]
    ∧ ActsAsNopIn (.wrTrigPhase k v) s { s with regs := { s.regs with phase := s.regs.phase.set k v } }

/-- The fallback rows: at an unmapped address a read returns the cycle's draw and a write is discarded; at
the reset mask's address they read and write that register (40_register_file_bus_ops.md section 1 and 3).
That the byte is unspecified and not zero is the spec's own decision D20 (assumption 5), that the draw is
one for each cycle number is the model's form of it (assumptions 4 and 5), and that these rows carry the
reset mask register is the model's choice (assumption 10). -/
def Obligations.FallbackRowsReadAndWrite : Prop :=
  ∀ (s : State) (a v : Byte), s.cfg.fixedRegAt a = none →
    (s.cfg.resetMaskAddr ≠ some a →
      ReadsAs (.rdUnmapped a) s (Config.unmappedRead s.now) ∧ ActsAsNopIn (.wrUnmapped a v) s s)
    ∧ (s.cfg.resetMaskAddr = some a →
      ReadsAs (.rdUnmapped a) s s.regs.resetMask
      ∧ ActsAsNopIn (.wrUnmapped a v) s { s with regs := { s.regs with resetMask := v } })

/-- R111: a read of a mapped address returns the byte the register holds in the cycle, and changes
nothing. -/
def Obligations.ReadOfMappedAddressReturnsTheByteHeld : Prop :=
  ∀ (s : State) (w : BusWord) (b : Byte), w.valid = true → w.rw = false → s.x w.addr = some b →
    ReadsAs (decode s.cfg w) s b

/-- R112: a write of a mapped RW address replaces all eight bits of that register at the start of the
cycle, whatever the byte, and nothing else. -/
def Obligations.WriteOfRwAddressReplacesThatByte : Prop :=
  ∀ (s : State) (w : BusWord) (r : Reg), w.valid = true → w.rw = true →
    s.cfg.regAt w.addr = some r → r.access = .rw →
    ∃ f : RegFile, ActsAsNopIn (decode s.cfg w) s { s with regs := f }
      ∧ ({ s with regs := f } : State).x w.addr = some w.data
      ∧ ∀ a, a ≠ w.addr → ({ s with regs := f } : State).x a = s.x a

/-- A read of an unmapped address returns a draw and changes no state; a write of one is discarded
(40_register_file_bus_ops.md section 1; that the byte is unspecified and not zero is the spec's own
decision D20, its form as a draw assumptions 4 and 5). -/
def Obligations.UnmappedAddressReadsADrawAndDiscardsWrites : Prop :=
  ∀ (s : State) (w : BusWord), w.valid = true → s.cfg.regAt w.addr = none →
    (w.rw = false → ReadsAs (decode s.cfg w) s (Config.unmappedRead s.now))
    ∧ (w.rw = true → ActsAsNopIn (decode s.cfg w) s s)

/-- R114: a write of a mapped RO address is a no-op. -/
def Obligations.WriteOfRoAddressIsIgnored : Prop :=
  ∀ (s : State) (w : BusWord) (r : Reg), w.valid = true → w.rw = true →
    s.cfg.regAt w.addr = some r → r.access = .ro → ActsAsNopIn (decode s.cfg w) s s

/-- A word with `valid = 0` is NOP; phase W does nothing, so no register changes but by its
TriggerController, no byte is returned, every output is formed, and every component runs
(40_register_file_bus_ops.md section 3, 45_cycle_composition.md section 1). The clauses on `cfg`, `busIn`
and `now`, the record of the outputs and the form of the draw in a cell's next latched bit are the model's
(assumptions 1, 3, 4, 7 and 6; the reset lines' presence 10). -/
def Obligations.NopLeavesTheRegisterFile : Prop :=
  ∀ (s : State) (w : BusWord), w.valid = false →
    decode s.cfg w = .nop ∧ ∃ t, exec .nop s = .next t
      ∧ t.obs.result = none
      ∧ (∀ i : Fin 8, t.obs.xa[i] = xbarOut s.regs.xbarA[i] s.latA[i]
          ∧ t.obs.xb[i] = xbarOut s.regs.xbarB[i] s.latB[i])
      ∧ (s.cfg.resetMaskAddr = none → t.obs.rst = none)
      ∧ (∀ a, s.cfg.resetMaskAddr = some a →
          ∃ lines, t.obs.rst = some lines ∧ ∀ i : Fin 8, lines[i] = s.regs.resetMask.getLsbD i.val)
      ∧ t.regs = { s.regs with mode := t.regs.mode }
      ∧ t.cd = s.cd.next s.cfg.clkdivMaxPeriod
      ∧ t.dv = s.dv.next s.cd.strobe s.regs.clockDivider
      ∧ (∀ k : Fin 8, k.val < s.cfg.nTrig →
          t.ch[k] = s.ch[k].next s.cfg.policy (s.triggerInputs k)
          ∧ t.regs.mode[k] = modeNext s.cfg.modes s.dv.strobe s.regs.mode[k] s.ch[k].out)
      ∧ (∀ i : Fin 8, t.latA[i] = s.latchNext i.val s.regs.xbarA[i]
          ∧ t.latB[i] = s.latchNext (8 + i.val) s.regs.xbarB[i])
      ∧ t.cfg = s.cfg ∧ t.busIn = s.busIn ∧ t.now = s.now + 1

/-- The Mode registers apart, a register changes only by a bus write of its address, and only if it is
RW: the frame of every operation over every byte of the address space (10_state.md section 2). -/
def Obligations.OnlyBusWritesChangeOtherRegisters : Prop :=
  ∀ (i : Instr) (s : State), i.wellFormed s.cfg = true →
    ∃ t, exec i s = .next t ∧ t.cfg = s.cfg
      ∧ ∀ a : Byte, (∀ k : Fin 8, k.val < s.cfg.nTrig → (Reg.mode k).addr s.cfg ≠ some a) →
          t.x a =
            if i.writeData.isSome = true ∧ i.addr = a
                ∧ (s.cfg.regAt a).any (fun r => r.access = .rw) = true
            then i.writeData else s.x a

/-- No run changes an RO register: every read of it, now or later, returns the same byte (10_state.md
section 1). -/
def Obligations.RoRegistersNeverChange : Prop :=
  ∀ (n : Nat) (s : State) (a : Byte) (r : Reg), s.cfg.regAt a = some r → r.access = .ro →
    ∃ t, runCycles n s = .next t ∧ t.cfg = s.cfg ∧ t.x a = s.x a

/-- Power Control is read and written, and nothing in the block reads it: in every cycle that does not
address it, two states that differ in it alone go to states that differ in it alone
(40_register_file_bus_ops.md section 3; storage only is the spec's own decision D21, assumption 21). -/
def Obligations.PowerControlIsStorageOnly : Prop :=
  (∀ (s : State) (v : Byte),
    ReadsAs .rdPowerControl s s.regs.powerControl
    ∧ ActsAsNopIn (.wrPowerControl v) s { s with regs := { s.regs with powerControl := v } })
  ∧ ∀ (i : Instr) (s : State) (v : Byte), i.wellFormed s.cfg = true →
      i ≠ .rdPowerControl → (∀ u, i ≠ .wrPowerControl u) →
      ∃ t, exec i s = .next t
        ∧ exec i { s with regs := { s.regs with powerControl := v } } =
            .next { t with regs := { t.regs with powerControl := v } }

/-- The bits of Trigger Enables at and above N_TRIG are stored and control nothing: in every cycle that
does not address the register, two states that differ in those bits alone go to states that differ in them
alone (30_encoding.md section 3; the bit assignment is the spec's decision D6, assumption 20). -/
def Obligations.EnableBitsAboveTheChannelsAreInert : Prop :=
  ∀ (i : Instr) (s : State) (e : Byte), i.wellFormed s.cfg = true →
    i ≠ .rdTriggerEnables → (∀ u, i ≠ .wrTriggerEnables u) →
    (∀ k : Nat, k < s.cfg.nTrig → e.getLsbD k = s.regs.triggerEnables.getLsbD k) →
    ∃ t, exec i s = .next t
      ∧ exec i { s with regs := { s.regs with triggerEnables := e } } =
          .next { t with regs := { t.regs with triggerEnables := e } }

/-- A read in the cycle after a write of the same RW address returns the written byte, but for a Mode
register, which returns what the TriggerController made of it at the edge between (20_memory.md
section 6; 70_reset_and_hazards.md section 3). -/
def Obligations.ReadAfterWriteReturnsTheWrittenByte : Prop :=
  ∀ (s : State) (a v : Byte) (r : Reg) (rest : List BusWord),
    s.cfg.regAt a = some r → r.access = .rw → s.busIn = wrWord a v :: rdWord a :: rest →
    ∃ t, runCycles 2 s = .next t
      ∧ ((∀ k, r ≠ .mode k) → t.obs.result = some v)
      ∧ (∀ k, r = .mode k →
          t.obs.result = some (modeNext s.cfg.modes s.dv.strobe v s.ch[k].out))

/-! ### The clock-divider chain (41_clock_dividers.md) -/

/-- R141: the ClockDivider's step in every cycle, whatever the bus does. -/
def Obligations.ClockDividerStep : Prop :=
  ∀ (i : Instr) (s : State), i.wellFormed s.cfg = true →
    ∃ t, exec i s = .next t
      ∧ (s.cd.counter = 0 →
          t.cd = { counter := s.cfg.clkdivMaxPeriod - 1, strobe := true, clk := !s.cd.clk })
      ∧ (s.cd.counter ≠ 0 →
          t.cd = { counter := s.cd.counter - 1, strobe := false, clk := s.cd.clk })

/-- The Divider's step in every cycle, with the post-write period (41_clock_dividers.md section 2); that
the force-low has priority over the raise is the spec's own decision D9 (assumption 15), and the 8-bit
counter its decision D8 (assumption 14). -/
def Obligations.DividerStep : Prop :=
  ∀ (i : Instr) (s : State), i.wellFormed s.cfg = true →
    ∃ t, exec i s = .next t
      ∧ (s.cd.strobe = true → s.dv.counter = 0 →
          t.dv = { counter := (s.afterBus i).regs.clockDivider - 1, strobe := !s.dv.strobe,
                   clk := !s.dv.clk })
      ∧ (s.cd.strobe = true → s.dv.counter ≠ 0 →
          t.dv = { counter := s.dv.counter - 1, strobe := false, clk := s.dv.clk })
      ∧ (s.cd.strobe = false →
          t.dv = { counter := s.dv.counter, strobe := false, clk := s.dv.clk })

/-- Period changes are deferred (41_clock_dividers.md section 2): the period is read only at a reload. A
write of it in any other cycle leaves the Divider as no write would, a reload loads from the byte that the
register holds, and a write in the reload's own cycle is used by that reload. -/
def Obligations.PeriodChangeIsDeferred : Prop :=
  ∀ (s : State) (v : Byte),
    ∃ t u, exec (.wrClockDivider v) s = .next t ∧ exec .nop s = .next u
      ∧ t.regs.clockDivider = v
      ∧ (¬ (s.cd.strobe = true ∧ s.dv.counter = 0) → t.dv = u.dv)
      ∧ (s.cd.strobe = true → s.dv.counter = 0 →
          u.dv.counter = s.regs.clockDivider - 1 ∧ t.dv.counter = v - 1
          ∧ t.dv.strobe = u.dv.strobe ∧ t.dv.clk = u.dv.clk)

/-- From reset, whatever the host does, the base strobe is 1 exactly in the cycles
`t = 1 + m * CLKDIV_MAX_PERIOD` (41_clock_dividers.md section 1, marked there as derived; it rests on the
reset values of decision D17, assumption 13). -/
def Obligations.BaseStrobePositions : Prop :=
  ∀ (cfg : Config) (ws : List BusWord) (n : Nat), 1 ≤ cfg.clkdivMaxPeriod →
    ∃ t, runCycles n (startWith cfg ws) = .next t ∧ t.now = n
      ∧ (t.cd.strobe = true ↔ ∃ m, n = 1 + m * cfg.clkdivMaxPeriod)

/-- From reset, while the host does not write the period, the wall tick is in exactly the cycles
`t = 2 + m * C * P`, provided `C * P ≥ 2`, with a period byte of 0 read as 256 (41_clock_dividers.md
section 2, marked there as derived; it rests on the reset values of decision D17, assumption 13, and on the
8-bit counter of decision D8, assumption 14). -/
def Obligations.WallTickPositions : Prop :=
  ∀ (cfg : Config) (ws : List BusWord) (n : Nat), 1 ≤ cfg.clkdivMaxPeriod →
    2 ≤ cfg.clkdivMaxPeriod * periodOf cfg.divInitialPeriod →
    (∀ w ∈ ws, wordWrites w 0x14 = false) →
    ∃ t, runCycles n (startWith cfg ws) = .next t
      ∧ (t.dv.strobe = true ↔
          ∃ m, n = 2 + m * (cfg.clkdivMaxPeriod * periodOf cfg.divInitialPeriod))

/-! ### The Trigger FSM (42_trigger_fsm.md)

`x` is the operands of the cycle, `c` the channel's state and `c'` its next state. Each statement holds
under both values of TRIG_CONFLICT_POLICY. -/

/-- At a wall tick that finds the channel disabled, the output falls, the channel is Off, `ic` and `pc` are
cleared and `dc` is left untouched; in an off-cycle the enable bit is not looked at (42_trigger_fsm.md
section 2; that the other steps contribute nothing then is the spec's own decision D12, assumption 16). -/
def Obligations.DisableForcesTheChannelOff : Prop :=
  ∀ (i : Instr) (s : State) (k : Fin 8), i.wellFormed s.cfg = true → k.val < s.cfg.nTrig →
    OnChannel i s k fun x c c' =>
      (x.tick = true → x.en = false →
        c' = { es := .off, ic := 0, dc := c.dc, pc := 0, out := false })
      ∧ (x.tick = false → ∀ e, c' = c.next s.cfg.policy { x with en := e })

/-- Mode Stop at a wall tick: the output falls and the channel is Off, unless a phase delay expires at this
very tick, which is conflict K4 and writes the two also. In both cases `ic` stays, `dc` counts down over a
running pulse and `pc` in Wait. `es = Init` never meets a tick (42_trigger_fsm.md section 2). -/
def Obligations.StopLowersTheOutput : Prop :=
  ∀ (i : Instr) (s : State) (k : Fin 8), i.wellFormed s.cfg = true → k.val < s.cfg.nTrig →
    OnChannel i s k fun x c c' =>
      x.tick = true → x.en = true → x.mode = .stop → c.es ≠ .init →
        (¬ c.PhaseEnds → c'.out = false ∧ c'.es = .off)
        ∧ c'.ic = c.ic
        ∧ c'.dc = (if c.out = true ∧ c.dc ≠ 0 then c.dc - 1 else c.dc)
        ∧ c'.pc = (if c.es = .wait ∧ c.pc ≠ 0 then c.pc - 1 else c.pc)

/-- Any unmapped mode value behaves as Idle in the FSM: a channel goes to the same state with a Mode byte
that is none of the five codes as with the code of Idle, in both no arming takes place and a channel at
rest, low and with no phase delay, is held as it is, and the byte stays in the register (42_trigger_fsm.md
section 2, 43_trigger_controller.md section 2). That every byte outside the five codes is unmapped rests on
the full-byte comparison, the spec's own decision D5 (assumption 19). -/
def Obligations.UnmappedModeActsAsIdle : Prop :=
  ∀ (s : State) (k : Fin 8) (b : Byte), k.val < s.cfg.nTrig → s.cfg.modes.distinct = true →
    b ∉ [s.cfg.modes.stop, s.cfg.modes.idle, s.cfg.modes.interval, s.cfg.modes.oneShot,
      s.cfg.modes.constant] →
    ∃ t u, exec (.wrTrigMode k b) s = .next t
      ∧ exec (.wrTrigMode k s.cfg.modes.idle) s = .next u
      ∧ t.ch[k] = u.ch[k]
      ∧ t.ch[k].es ≠ .init
      ∧ (s.dv.strobe = false ∨ s.regs.triggerEnables.getLsbD k.val = true →
          t.ch[k].ic = s.ch[k].ic
          ∧ (s.ch[k].es ≠ .init → s.ch[k].es ≠ .wait → s.ch[k].out = false → t.ch[k] = s.ch[k]))
      ∧ t.regs.mode[k] = b

/-- Mode Interval at a wall tick: it arms when `ic = 0`, whatever `es` and `out` are, else counts `ic`
down and leaves a channel at rest as it is but for that, and with `d = 0` or `n = 0` does neither and
leaves a channel at rest as it is. The `es`, the output and the `dc` of an arming over a running pulse or
an expiring delay are in ConflictTable (42_trigger_fsm.md section 2). -/
def Obligations.IntervalArmsOrCounts : Prop :=
  ∀ (i : Instr) (s : State) (k : Fin 8), i.wellFormed s.cfg = true → k.val < s.cfg.nTrig →
    OnChannel i s k fun x c c' =>
      x.tick = true → x.en = true → x.mode = .interval → c.es ≠ .init →
        (x.Arms c → c'.ic = x.n - 1
          ∧ c'.pc = (if c.es = .wait ∧ c.pc ≠ 0 then c.pc - 1 else c.pc)
          ∧ (c.out = false ∨ c.dc = 0 → c'.dc = x.d - 1))
        ∧ (x.Arms c → c.out = false → ¬ c.PhaseEnds → c'.es = .init ∧ c'.out = false)
        ∧ (x.d ≠ 0 → x.n ≠ 0 → c.ic ≠ 0 → c'.ic = c.ic - 1 ∧ c'.es ≠ .init
          ∧ (c.es ≠ .wait → c.out = false → c' = { c with ic := c.ic - 1 }))
        ∧ (x.d = 0 ∨ x.n = 0 → c'.ic = c.ic ∧ c'.es ≠ .init
          ∧ (c.es ≠ .wait → c.out = false → c' = c))

/-- Mode OneShot at a wall tick: it arms only from Off and with a non-zero Duration, and never touches
`ic` (42_trigger_fsm.md section 2). -/
def Obligations.OneShotArmsOnceFromOff : Prop :=
  ∀ (i : Instr) (s : State) (k : Fin 8), i.wellFormed s.cfg = true → k.val < s.cfg.nTrig →
    OnChannel i s k fun x c c' =>
      x.tick = true → x.en = true → x.mode = .oneShot → c.es ≠ .init → (c.es = .off → c.out = false) →
        c'.ic = c.ic
        ∧ (x.d ≠ 0 → c.es = .off → c' = { c with es := .init, dc := x.d - 1 })
        ∧ (x.d = 0 ∨ c.es ≠ .off → c'.es ≠ .init)
        ∧ (x.d = 0 → c.es = .off → c' = c)

/-- Mode Constant at a wall tick: it arms from Off without loading `dc`, and a raised output stays: the
duration countdown does not run (42_trigger_fsm.md section 2). -/
def Obligations.ConstantArmsAndHolds : Prop :=
  ∀ (i : Instr) (s : State) (k : Fin 8), i.wellFormed s.cfg = true → k.val < s.cfg.nTrig →
    OnChannel i s k fun x c c' =>
      x.tick = true → x.en = true → x.mode = .constant →
        (c.es = .off → c' = { c with es := .init })
        ∧ (c.es = .active → c' = c)
        ∧ (c.es = .wait → c.pc ≠ 0 → c' = { c with pc := c.pc - 1 })
        ∧ (c.es = .wait → c.pc = 0 → c' = { c with es := .active, out := true })

/-- The duration countdown at a wall tick with the output high, in every mode but Constant and Stop and
where no arming takes place, whether the channel is Active or, after a re-arm over a running pulse, in
Wait: a pulse with `dc = 0` ends, and with it a phase delay that does not expire at this very tick (that is
conflict K3); any other counts `dc` down and stays high, while a phase delay goes on beside it
(42_trigger_fsm.md section 2 and 3). -/
def Obligations.DurationCountdown : Prop :=
  ∀ (i : Instr) (s : State) (k : Fin 8), i.wellFormed s.cfg = true → k.val < s.cfg.nTrig →
    OnChannel i s k fun x c c' =>
      x.tick = true → x.en = true → x.mode ≠ .constant → x.mode ≠ .stop →
      (c.es = .active ∨ c.es = .wait) → c.out = true → ¬ x.Arms c →
        (c.dc = 0 → ¬ c.PhaseEnds → c'.out = false ∧ c'.es = .off ∧ c'.dc = c.dc
          ∧ c'.pc = if c.es = .wait then c.pc - 1 else c.pc)
        ∧ (c.dc ≠ 0 → c'.out = true ∧ c'.dc = c.dc - 1
          ∧ (c.es = .active → c'.es = .active ∧ c'.pc = c.pc)
          ∧ (c.es = .wait → c.pc = 0 → c'.es = .active ∧ c'.pc = c.pc)
          ∧ (c.es = .wait → c.pc ≠ 0 → c'.es = .wait ∧ c'.pc = c.pc - 1))

/-- The phase resolution at the edge that ends an Init cycle, which is never a wall tick: with `p = 0` the
output rises, else the phase delay begins; the enable bit is not consulted (42_trigger_fsm.md
section 2, where its being synchronous is the spec's decision D13). -/
def Obligations.PhaseResolution : Prop :=
  ∀ (i : Instr) (s : State) (k : Fin 8), i.wellFormed s.cfg = true → k.val < s.cfg.nTrig →
    OnChannel i s k fun x c c' =>
      x.tick = false → c.es = .init →
        (x.p = 0 → c' = { c with es := .active, out := true })
        ∧ (x.p ≠ 0 → c' = { c with es := .wait, pc := x.p - 1 })

/-- The phase countdown at a wall tick, with the output low or high: `pc` counts down, and at its end the
output is high and the channel Active; a pulse that ends at the same tick is conflict K3 when the delay
expires, and cancels the delay when it does not. Stop and an arming are other statements
(42_trigger_fsm.md section 2 and 3). -/
def Obligations.PhaseCountdown : Prop :=
  ∀ (i : Instr) (s : State) (k : Fin 8), i.wellFormed s.cfg = true → k.val < s.cfg.nTrig →
    OnChannel i s k fun x c c' =>
      x.tick = true → x.en = true → x.mode ≠ .stop → ¬ x.Arms c → c.es = .wait →
        let pulseEnds := c.PulseEnds ∧ x.mode ≠ .constant
        (c.pc = 0 → c'.pc = c.pc ∧ (¬ pulseEnds → c'.out = true ∧ c'.es = .active))
        ∧ (c.pc ≠ 0 → c'.pc = c.pc - 1
          ∧ (¬ pulseEnds → c'.out = c.out ∧ c'.es = .wait)
          ∧ (pulseEnds → c'.out = false ∧ c'.es = .off))
        ∧ (c.out = false ∨ x.mode = .constant → c'.dc = c.dc)
        ∧ (c.out = true → x.mode ≠ .constant → c'.dc = if c.dc = 0 then c.dc else c.dc - 1)

/-- An off-cycle with `es ≠ Init` changes nothing in a channel (42_trigger_fsm.md section 3). -/
def Obligations.OffCycleHoldsTheChannel : Prop :=
  ∀ (i : Instr) (s : State) (k : Fin 8), i.wellFormed s.cfg = true → k.val < s.cfg.nTrig →
    OnChannel i s k fun x c c' => x.tick = false → c.es ≠ .init → c' = c

/-- The table of conflicts K1 to K6, row by row, with the value each policy keeps, and the `es` and the
output that an arming over a running pulse leaves, which no policy decides (42_trigger_fsm.md section 2 and
4). K7 is `es = Init` at a wall tick, which InvariantKeptByEveryStep excludes. -/
def Obligations.ConflictTable : Prop :=
  ∀ (i : Instr) (s : State) (k : Fin 8), i.wellFormed s.cfg = true → k.val < s.cfg.nTrig →
    OnChannel i s k fun x c c' =>
      x.tick = true → x.en = true → c.es ≠ .init →
      let earlier := s.cfg.policy = .earlierWins
      (x.Arms c → c.out = true → c.dc ≠ 0 →
        c'.dc = (if earlier then x.d - 1 else c.dc - 1)
        ∧ (¬ c.PhaseEnds → c'.es = .init ∧ c'.out = true))
      ∧ (x.Arms c → c.PulseEnds → ¬ c.PhaseEnds →
        c'.out = false ∧ c'.es = (if earlier then .init else .off) ∧ c'.ic = x.n - 1)
      ∧ (c.PhaseEnds → c.PulseEnds → x.mode ≠ .constant → x.mode ≠ .stop → ¬ x.Arms c →
        if earlier then c'.out = false ∧ c'.es = .off else c'.out = true ∧ c'.es = .active)
      ∧ (c.PhaseEnds → x.mode = .stop →
        if earlier then c'.out = false ∧ c'.es = .off else c'.out = true ∧ c'.es = .active)
      ∧ (c.PhaseEnds → x.Arms c → ¬ c.PulseEnds →
        c'.out = true ∧ c'.es = if earlier then .init else .active)
      ∧ (c.PhaseEnds → x.Arms c → c.PulseEnds →
        if earlier then c'.out = false ∧ c'.es = .init else c'.out = true ∧ c'.es = .active)

/-- The two readings of priority differ only in the states K1 to K6: in every other state that meets the
invariant (an Off channel is low, and `es = Init` does not meet a wall tick), the policy is irrelevant
(42_trigger_fsm.md section 1 and 4). -/
def Obligations.PolicyMattersOnlyInTheConflicts : Prop :=
  ∀ (x : TriggerInputs) (c : Channel), c.Inv x.tick →
    ¬ (x.tick = true ∧ x.en = true ∧
        ((x.Arms c ∧ c.out = true)
          ∨ (c.PhaseEnds ∧ c.PulseEnds ∧ x.mode ≠ .constant)
          ∨ (c.PhaseEnds ∧ x.mode = .stop)
          ∨ (c.PhaseEnds ∧ x.Arms c))) →
    c.next .earlierWins x = c.next .laterWins x

/-- The merge of the steps' writes is the sequential commit of their partial assignments, all computed from
current values: in the order of the steps when later writes win, in the reverse order when earlier
ones do (42_trigger_fsm.md section 1). -/
def Obligations.MergeIsAnOrderedCommit : Prop :=
  ∀ (c : Channel) (ws : List Assign),
    c.commit (merge .laterWins ws) = ws.foldl Channel.commit c
    ∧ c.commit (merge .earlierWins ws) = ws.reverse.foldl Channel.commit c

/-- R160: channels are independent: a channel's next state and Mode depend on its own state, its own four
registers, its own enable bit and the wall tick, and on nothing else, whatever operation the host presents. -/
def Obligations.ChannelsAreIndependent : Prop :=
  ∀ (i : Instr) (s s' : State) (k : Fin 8), i.wellFormed s.cfg = true → k.val < s.cfg.nTrig →
    s.cfg = s'.cfg → s.dv.strobe = s'.dv.strobe → s.ch[k] = s'.ch[k] →
    s.regs.triggerEnables.getLsbD k.val = s'.regs.triggerEnables.getLsbD k.val →
    s.regs.mode[k] = s'.regs.mode[k] → s.regs.interval[k] = s'.regs.interval[k] →
    s.regs.duration[k] = s'.regs.duration[k] → s.regs.phase[k] = s'.regs.phase[k] →
    ∃ t t', exec i s = .next t ∧ exec i s' = .next t'
      ∧ t.ch[k] = t'.ch[k] ∧ t.regs.mode[k] = t'.regs.mode[k]

/-- A channel slot at or above N_TRIG is no hardware: no operation changes its state (the model's own
layout, assumption 8). -/
def Obligations.AbsentChannelsNeverChange : Prop :=
  ∀ (i : Instr) (s : State) (k : Fin 8), i.wellFormed s.cfg = true → s.cfg.nTrig ≤ k.val →
    ∃ t, exec i s = .next t ∧ t.ch[k] = s.ch[k]
      ∧ t.regs.mode[k] = s.regs.mode[k] ∧ t.regs.interval[k] = s.regs.interval[k]
      ∧ t.regs.duration[k] = s.regs.duration[k] ∧ t.regs.phase[k] = s.regs.phase[k]

/-! ### The TriggerController (43_trigger_controller.md) -/

/-- The TriggerController's step in every cycle, on the post-write Mode byte and the registered output,
whatever the enable bit; the Trigger FSM of the same cycle still sees the old mode
(43_trigger_controller.md section 2). That the strobe is the wall tick and the enable bit is not consulted
is the spec's own decision D34 (assumption 18), and the full-byte comparison its decision D5
(assumption 19). -/
def Obligations.ControllerRewritesMode : Prop :=
  ∀ (i : Instr) (s : State) (k : Fin 8), i.wellFormed s.cfg = true → k.val < s.cfg.nTrig →
    ∃ t, exec i s = .next t ∧
      let mode := (s.afterBus i).regs.mode[k]
      t.regs.mode[k] =
        (if s.dv.strobe = true then
          (if mode = s.cfg.modes.oneShot ∧ s.ch[k].out = true then s.cfg.modes.idle else mode)
        else
          (if mode = s.cfg.modes.idle ∧ s.ch[k].out = false then s.cfg.modes.stop else mode))
      ∧ ((s.afterBus i).triggerInputs k).mode = modeOf s.cfg.modes mode
      ∧ t.ch[k] = s.ch[k].next s.cfg.policy ((s.afterBus i).triggerInputs k)

/-- The hardware rewrites no Mode byte but the full bytes of OneShot and Idle, and those only to Idle and
to Stop (43_trigger_controller.md section 2; the full-byte comparison is the spec's own decision D5,
assumption 19). -/
def Obligations.OnlyOneShotAndIdleAreRewritten : Prop :=
  ∀ (i : Instr) (s : State) (k : Fin 8), i.wellFormed s.cfg = true → k.val < s.cfg.nTrig →
    ∃ t, exec i s = .next t ∧
      let mode := (s.afterBus i).regs.mode[k]
      (t.regs.mode[k] ≠ mode →
        (mode = s.cfg.modes.oneShot ∧ t.regs.mode[k] = s.cfg.modes.idle)
        ∨ (mode = s.cfg.modes.idle ∧ t.regs.mode[k] = s.cfg.modes.stop))

/-- Idle is transient while the output is low: written in an off-cycle it is Stop in the next cycle;
written in a wall-tick cycle it is still Idle in the next cycle, which is an off-cycle, and Stop in the
one after if the output is still low and the host does not write that Mode register again
(43_trigger_controller.md section 4, marked there as derived). -/
def Obligations.IdleIsTransientWhileTheOutputIsLow : Prop :=
  ∀ (s : State) (k : Fin 8), k.val < s.cfg.nTrig → s.cfg.modes.distinct = true →
    s.ch[k].out = false →
    ∃ t, exec (.wrTrigMode k s.cfg.modes.idle) s = .next t
      ∧ (s.dv.strobe = false → t.regs.mode[k] = s.cfg.modes.stop)
      ∧ (s.dv.strobe = true → t.regs.mode[k] = s.cfg.modes.idle ∧ t.dv.strobe = false
          ∧ ∀ i : Instr, i.wellFormed s.cfg = true → (∀ v, i ≠ .wrTrigMode k v) →
              t.ch[k].out = false → ∃ u, exec i t = .next u ∧ u.regs.mode[k] = s.cfg.modes.stop)

/-! ### The crossbars (44_crossbar.md) -/

/-- In every cycle each cell latches the input that its post-write select names, whatever its other bits,
and where it names none a bit that is unspecified (44_crossbar.md section 1 and 2). That this bit is
unspecified and the cell runs on is the spec's own decision D16, and the draw for each cycle number and cell
is the model's form of it (assumptions 4 and 6). -/
def Obligations.CrossbarLatchStep : Prop :=
  ∀ (i : Instr) (s : State) (j : Fin 8), i.wellFormed s.cfg = true →
    ∃ t, exec i s = .next t ∧
      let a := xbarSelect (s.afterBus i).regs.xbarA[j]
      let b := xbarSelect (s.afterBus i).regs.xbarB[j]
      (∀ v, s.input a = some v → t.latA[j] = v) ∧ (∀ v, s.input b = some v → t.latB[j] = v)
      ∧ (s.cfg.nIn ≤ a → t.latA[j] = Config.xbarOor s.now j.val)
      ∧ (s.cfg.nIn ≤ b → t.latB[j] = Config.xbarOor s.now (8 + j.val))
      ∧ (a < s.cfg.nIn → ∃ v, s.input a = some v) ∧ (b < s.cfg.nIn → ∃ v, s.input b = some v)

/-- R202: the crossbar outputs of a cycle, from the post-write control byte of the cycle and the current
latched bit. -/
def Obligations.CrossbarOutputFunction : Prop :=
  ∀ (i : Instr) (s : State) (j : Fin 8), i.wellFormed s.cfg = true →
    ∃ t, exec i s = .next t ∧
      let a := (s.afterBus i).regs.xbarA[j]
      let b := (s.afterBus i).regs.xbarB[j]
      t.obs.xa[j] =
        (if a.getLsbD 7 then (if a.getLsbD 5 then !s.latA[j] else s.latA[j]) else a.getLsbD 6)
      ∧ t.obs.xb[j] =
        (if b.getLsbD 7 then (if b.getLsbD 5 then !s.latB[j] else s.latB[j]) else b.getLsbD 6)

/-- For a cell of either crossbar whose control byte the host leaves alone for two cycles. With `oe = 1`
and a select that names an input, the output of the second cycle is that input in the first, inverted if
`invert = 1` (byte 0x82 tracks input 2 exactly, with one cycle of latency). With `oe = 0` the output is
the default bit in both cycles, whatever the select names (44_crossbar.md section 1 and 3). -/
def Obligations.CrossbarTracksItsInputOneCycleLate : Prop :=
  ∀ (i₁ i₂ : Instr) (s : State) (j : Fin 8), i₁.wellFormed s.cfg = true → i₂.wellFormed s.cfg = true →
    ∃ t u, exec i₁ s = .next t ∧ exec i₂ t = .next u
      ∧ ((∀ b, i₁ ≠ .wrXbarA j b) → (∀ b, i₂ ≠ .wrXbarA j b) →
          (∀ v, s.input (xbarSelect s.regs.xbarA[j]) = some v → xbarOe s.regs.xbarA[j] = true →
            u.obs.xa[j] = (v ^^ xbarInvert s.regs.xbarA[j]))
          ∧ (xbarOe s.regs.xbarA[j] = false →
            t.obs.xa[j] = xbarDefault s.regs.xbarA[j] ∧ u.obs.xa[j] = xbarDefault s.regs.xbarA[j]))
      ∧ ((∀ b, i₁ ≠ .wrXbarB j b) → (∀ b, i₂ ≠ .wrXbarB j b) →
          (∀ v, s.input (xbarSelect s.regs.xbarB[j]) = some v → xbarOe s.regs.xbarB[j] = true →
            u.obs.xb[j] = (v ^^ xbarInvert s.regs.xbarB[j]))
          ∧ (xbarOe s.regs.xbarB[j] = false →
            t.obs.xb[j] = xbarDefault s.regs.xbarB[j] ∧ u.obs.xb[j] = xbarDefault s.regs.xbarB[j]))

/-- The cells are independent (44_crossbar.md section 1): a cell's next latched bit and its output depend
on its own control byte, its own latched bit, the input vector and the draw of the cycle (D16,
assumptions 4 and 6), and on no other cell, whatever operation the host presents. -/
def Obligations.CrossbarCellsAreIndependent : Prop :=
  ∀ (i : Instr) (s s' : State) (j : Fin 8), i.wellFormed s.cfg = true → s.cfg = s'.cfg →
    s.now = s'.now → (∀ n, s.input n = s'.input n) →
    ∃ t t', exec i s = .next t ∧ exec i s' = .next t'
      ∧ (s.regs.xbarA[j] = s'.regs.xbarA[j] → t.latA[j] = t'.latA[j])
      ∧ (s.regs.xbarB[j] = s'.regs.xbarB[j] → t.latB[j] = t'.latB[j])
      ∧ (s.regs.xbarA[j] = s'.regs.xbarA[j] → s.latA[j] = s'.latA[j] → t.obs.xa[j] = t'.obs.xa[j])
      ∧ (s.regs.xbarB[j] = s'.regs.xbarB[j] → s.latB[j] = s'.latB[j] → t.obs.xb[j] = t'.obs.xb[j])

/-- The ResetController: where it is present, each reset line of every cycle is its bit of the mask
register after the cycle's bus write, and a write at its address drives the lines in its own cycle and is
kept; where it is absent there are no reset lines (44_crossbar.md section 4; assumption 10). -/
def Obligations.ResetLinesFollowTheMask : Prop :=
  ∀ (i : Instr) (s : State), i.wellFormed s.cfg = true →
    ∃ t, exec i s = .next t
      ∧ (s.cfg.resetMaskAddr = none → t.obs.rst = none)
      ∧ ∀ a, s.cfg.resetMaskAddr = some a →
          (∀ v, i = .wrUnmapped a v → t.regs.resetMask = v)
          ∧ ((∀ v, i ≠ .wrUnmapped a v) → t.regs.resetMask = s.regs.resetMask)
          ∧ ∃ lines, t.obs.rst = some lines ∧ ∀ n : Fin 8, lines[n] = t.regs.resetMask.getLsbD n.val

/-! ### Invariants (10_state.md section 4) -/

/-- Every step from a state that meets the invariants gives a state that meets them, under either policy
and whatever the bus does; and what R35 says of two consecutive cycles holds: no two wall ticks in a row,
and `es = Init` only right after a wall tick. -/
def Obligations.InvariantKeptByEveryStep : Prop :=
  ∀ s : State, s.Inv → ∃ t, step s = .next t ∧ t.Inv
    ∧ (s.dv.strobe = true → t.dv.strobe = false)
    ∧ ∀ k : Fin 8, k.val < s.cfg.nTrig → t.ch[k].es = .init →
        s.dv.strobe = true ∧ t.dv.strobe = false

/-- The invariants of 10_state.md section 4 hold in the reset state of every configuration; this rests on
the reset values of the spec's own decision D17 (10_state.md section 6, assumption 13). -/
def Obligations.InvariantHoldsAtReset : Prop := ∀ cfg : Config, (State.resetOf cfg).Inv

/-- No counter of a Trigger FSM is decremented from 0 and no register value is: each counter keeps its
value, is cleared, is loaded with one less than a non-zero register byte, or is counted down from a
non-zero value (10_state.md section 4, marked there as derived). -/
def Obligations.CountersNeverWrap : Prop :=
  ∀ (i : Instr) (s : State) (k : Fin 8), i.wellFormed s.cfg = true → k.val < s.cfg.nTrig →
    OnChannel i s k fun x c c' =>
      (c'.ic = c.ic ∨ c'.ic = 0 ∨ c'.ic.toNat + 1 = x.n.toNat ∨ c'.ic.toNat + 1 = c.ic.toNat)
      ∧ (c'.dc = c.dc ∨ c'.dc.toNat + 1 = x.d.toNat ∨ c'.dc.toNat + 1 = c.dc.toNat)
      ∧ (c'.pc = c.pc ∨ c'.pc = 0 ∨ c'.pc.toNat + 1 = x.p.toNat ∨ c'.pc.toNat + 1 = c.pc.toNat)

/-! ### Reset and runs (70_reset_and_hazards.md) -/

/-- The state in cycle 0: the RO registers at their constants, 0x14 at DIV_INITIAL_PERIOD, every other RW
register at DEFAULT(a), no byte at an unmapped address, every private element 0 and every `exec_state` Off
(10_state.md section 6; the values are the spec's own decision D17, assumption 13, and Trigger Count's is
its decision D18, assumption 12). That State.reset is the state of Config.vectors is the model's choice
(assumption 1). -/
def Obligations.ResetStateOfEveryConfiguration : Prop :=
  ∀ cfg : Config, let s := State.resetOf cfg
    (∀ j : Fin 6, s.x (BitVec.ofNat 8 j.val) = some cfg.productId[j])
    ∧ s.x 0x06 = some cfg.hwRev ∧ s.x 0x07 = some cfg.gwRev
    ∧ s.x 0x0A = some cfg.cameraCount ∧ s.x 0x0B = some cfg.gpioCount
    ∧ s.x 0x0C = some (BitVec.ofNat 8 cfg.nTrig)
    ∧ s.x 0x14 = some cfg.divInitialPeriod
    ∧ (∀ a r, cfg.regAt a = some r → r.access = .rw → a ≠ 0x14 → s.x a = some (cfg.defaultAt a))
    ∧ (∀ a, cfg.regAt a = none → s.x a = none)
    ∧ s.cd = { counter := 0, strobe := false, clk := false }
    ∧ s.dv = { counter := 0, strobe := false, clk := false }
    ∧ (∀ k : Fin 8, s.ch[k] = { es := .off, ic := 0, dc := 0, pc := 0, out := false })
    ∧ (∀ i : Fin 8, s.latA[i] = false ∧ s.latB[i] = false)
    ∧ State.reset = State.resetOf Config.vectors

/-- With no host write, and the spec's register defaults and mode codes, the block is quiescent for ever:
every channel stays Off and low, every register keeps its reset value, and every output is 0
(70_reset_and_hazards.md section 1, marked there as derived; it rests on the reset values of decision D17,
assumption 13, and on MODE_STOP = 0x00, assumption 2; for `n = 0` the outputs are the model's record
before any cycle, assumption 7). -/
def Obligations.QuiescentWithoutHostWrites : Prop :=
  ∀ (cfg : Config) (ws : List BusWord) (n : Nat), cfg.valid = true → cfg.defaults = [] →
    cfg.modes = ModeCodes.ofSpec → (∀ w ∈ ws, w.valid = true → w.rw = false) →
    ∃ t, runCycles n (startWith cfg ws) = .next t
      ∧ t.regs = RegFile.resetOf cfg
      ∧ (∀ k : Fin 8, t.ch[k] = Channel.reset)
      ∧ (∀ i : Fin 8, t.obs.xa[i] = false ∧ t.obs.xb[i] = false)

/-- A one-shot fires one pulse and clears itself. From any state with the channel Off and low, enabled and
its Mode at OneShot, with no bus operation to come: sampled at the wall ticks, the output is high from
the tick number `p + 1` to the tick number `p + d`; the Mode is OneShot through tick `p + 1`, Idle while
the pulse lasts, Idle or Stop in the cycles from its end to the next tick and Stop at that tick, and Stop
for ever after it; the channel is Off and low from the end of the pulse on
(43_trigger_controller.md section 3, marked there as derived; that an empty stream presents NOP for ever is
the model's, assumption 3). -/
def Obligations.OneShotFiresOnePulseAndClearsItself : Prop :=
  ∀ (s : State) (k : Fin 8) (n : Nat), k.val < s.cfg.nTrig → s.cfg.modes.distinct = true →
    s.busIn = [] → s.regs.triggerEnables.getLsbD k.val = true →
    s.regs.mode[k] = s.cfg.modes.oneShot → s.regs.duration[k] ≠ 0 →
    s.ch[k].es = .off → s.ch[k].out = false →
    ∃ t, runCycles n s = .next t ∧
      let d := s.regs.duration[k].toNat
      let p := s.regs.phase[k].toNat
      let ticks := wallTicks n s
      (t.dv.strobe = true → (t.ch[k].out = true ↔ p + 1 ≤ ticks ∧ ticks ≤ p + d))
      ∧ (ticks ≤ p + 1 → t.regs.mode[k] = s.cfg.modes.oneShot)
      ∧ (p + 2 ≤ ticks → ticks ≤ p + d → t.regs.mode[k] = s.cfg.modes.idle)
      ∧ (ticks = p + d + 1 →
          (t.regs.mode[k] = s.cfg.modes.idle ∨ t.regs.mode[k] = s.cfg.modes.stop)
          ∧ (t.dv.strobe = true → t.regs.mode[k] = s.cfg.modes.stop)
          ∧ t.ch[k].es = .off ∧ t.ch[k].out = false)
      ∧ (p + d + 2 ≤ ticks →
          t.regs.mode[k] = s.cfg.modes.stop ∧ t.ch[k].es = .off ∧ t.ch[k].out = false)

/-- Periodicity and phase delay of Interval mode. From any state with the channel Off and low, `ic = 0`,
enabled and in Interval mode, with `d + p < n` and no bus operation to come: sampled at the wall ticks
and counted from the arming tick, the output is low for `p + 1` ticks, high for `d` ticks, and this
repeats every `n` ticks for ever, under either policy (42_trigger_fsm.md section 5, marked there as
derived; that an empty stream presents NOP for ever is the model's, assumption 3). -/
def Obligations.IntervalModeIsPeriodic : Prop :=
  ∀ (s : State) (k : Fin 8) (m : Nat), k.val < s.cfg.nTrig → s.cfg.modes.distinct = true →
    s.busIn = [] → s.regs.triggerEnables.getLsbD k.val = true →
    s.regs.mode[k] = s.cfg.modes.interval → s.regs.duration[k] ≠ 0 →
    s.regs.duration[k].toNat + s.regs.phase[k].toNat < s.regs.interval[k].toNat →
    s.ch[k].es = .off → s.ch[k].out = false → s.ch[k].ic = 0 →
    ∃ t, runCycles m s = .next t ∧
      let n := s.regs.interval[k].toNat
      let d := s.regs.duration[k].toNat
      let p := s.regs.phase[k].toNat
      let ticks := wallTicks m s
      (t.dv.strobe = true →
        (t.ch[k].out = true ↔ 1 ≤ ticks ∧ p ≤ (ticks - 1) % n ∧ (ticks - 1) % n < p + d))
end

