-- ==== Sys2Proof/Laws/State.lean ====
section
/-! SUPPORT. What each update of the state does to each field, by rfl, so that no later proof unfolds a
record update. -/

namespace Sys2Proof.Machine

variable (s : State) (r : Option Byte)

/-! ### The clock cycle -/

@[simp] theorem State.cycle_cfg : (s.cycle r).cfg = s.cfg := rfl
@[simp] theorem State.cycle_cd : (s.cycle r).cd = s.cd.next s.cfg.clkdivMaxPeriod := rfl
@[simp] theorem State.cycle_dv : (s.cycle r).dv = s.dv.next s.cd.strobe s.regs.clockDivider := rfl
@[simp] theorem State.cycle_busIn : (s.cycle r).busIn = s.busIn := rfl
@[simp] theorem State.cycle_now : (s.cycle r).now = s.now + 1 := rfl
@[simp] theorem State.cycle_result : (s.cycle r).obs.result = r := rfl
@[simp] theorem State.cycle_rst : (s.cycle r).obs.rst = s.rst := rfl
@[simp] theorem State.cycle_clockDivider : (s.cycle r).regs.clockDivider = s.regs.clockDivider := rfl
@[simp] theorem State.cycle_powerControl : (s.cycle r).regs.powerControl = s.regs.powerControl := rfl
@[simp] theorem State.cycle_xbarA : (s.cycle r).regs.xbarA = s.regs.xbarA := rfl
@[simp] theorem State.cycle_xbarB : (s.cycle r).regs.xbarB = s.regs.xbarB := rfl
@[simp] theorem State.cycle_triggerEnables :
    (s.cycle r).regs.triggerEnables = s.regs.triggerEnables := rfl
@[simp] theorem State.cycle_interval : (s.cycle r).regs.interval = s.regs.interval := rfl
@[simp] theorem State.cycle_duration : (s.cycle r).regs.duration = s.regs.duration := rfl
@[simp] theorem State.cycle_phase : (s.cycle r).regs.phase = s.regs.phase := rfl
@[simp] theorem State.cycle_resetMask : (s.cycle r).regs.resetMask = s.regs.resetMask := rfl

/-- The Mode register after a cycle: the TriggerController's value in a channel the configuration has. -/
@[simp] theorem State.cycle_mode (k : Fin 8) :
    (s.cycle r).regs.mode[k.val] =
      if k.val < s.cfg.nTrig then modeNext s.cfg.modes s.dv.strobe s.regs.mode[k.val] s.ch[k.val].out
      else s.regs.mode[k.val] := by
  simp [State.cycle]

/-- A Trigger FSM after a cycle, in a channel the configuration has. -/
@[simp] theorem State.cycle_ch (k : Fin 8) :
    (s.cycle r).ch[k.val] =
      if k.val < s.cfg.nTrig then s.ch[k.val].next s.cfg.policy (s.triggerInputs k)
      else s.ch[k.val] := by
  simp [State.cycle]

@[simp] theorem State.cycle_latA (i : Fin 8) :
    (s.cycle r).latA[i.val] = s.latchNext i.val s.regs.xbarA[i.val] := by
  simp [State.cycle]

@[simp] theorem State.cycle_latB (i : Fin 8) :
    (s.cycle r).latB[i.val] = s.latchNext (8 + i.val) s.regs.xbarB[i.val] := by
  simp [State.cycle]

@[simp] theorem State.cycle_xa (i : Fin 8) : (s.cycle r).obs.xa[i.val] = s.xa i := by
  simp [State.cycle]

@[simp] theorem State.cycle_xb (i : Fin 8) : (s.cycle r).obs.xb[i.val] = s.xb i := by
  simp [State.cycle]

/-- The read data is the only thing in which two cycles from one state differ. -/
theorem State.cycle_eq_update (b : Byte) :
    s.cycle (some b) =
      { s.cycle none with obs := { (s.cycle none).obs with result := some b } } := rfl

/-! ### The bus input -/

@[simp] theorem State.takeWord_cfg : s.takeWord.cfg = s.cfg := rfl
@[simp] theorem State.takeWord_regs : s.takeWord.regs = s.regs := rfl
@[simp] theorem State.takeWord_cd : s.takeWord.cd = s.cd := rfl
@[simp] theorem State.takeWord_dv : s.takeWord.dv = s.dv := rfl
@[simp] theorem State.takeWord_ch : s.takeWord.ch = s.ch := rfl
@[simp] theorem State.takeWord_latA : s.takeWord.latA = s.latA := rfl
@[simp] theorem State.takeWord_latB : s.takeWord.latB = s.latB := rfl
@[simp] theorem State.takeWord_busIn : s.takeWord.busIn = s.busIn.tail := rfl
@[simp] theorem State.takeWord_now : s.takeWord.now = s.now := rfl
@[simp] theorem State.takeWord_obs : s.takeWord.obs = s.obs := rfl

/-- The word put into the stream is the word that the next cycle takes. -/
@[simp] theorem State.putWord_busNow (w : BusWord) : (s.putWord w).busNow = w := rfl

/-- After the word put into the stream is taken, the stream is as it was after its own word. -/
@[simp] theorem State.putWord_takeWord (w : BusWord) : (s.putWord w).takeWord = s.takeWord := rfl

/-- A cycle does not look at the stream. -/
theorem State.takeWord_cycle : s.takeWord.cycle r = (s.cycle r).takeWord := rfl

/-! ### The bus write of a register -/

variable (q : Reg) (v : Byte)

@[simp] theorem State.writeReg_cfg : (s.writeReg q v).cfg = s.cfg := by
  unfold State.writeReg; split <;> rfl
@[simp] theorem State.writeReg_cd : (s.writeReg q v).cd = s.cd := by
  unfold State.writeReg; split <;> rfl
@[simp] theorem State.writeReg_dv : (s.writeReg q v).dv = s.dv := by
  unfold State.writeReg; split <;> rfl
@[simp] theorem State.writeReg_ch : (s.writeReg q v).ch = s.ch := by
  unfold State.writeReg; split <;> rfl
@[simp] theorem State.writeReg_latA : (s.writeReg q v).latA = s.latA := by
  unfold State.writeReg; split <;> rfl
@[simp] theorem State.writeReg_latB : (s.writeReg q v).latB = s.latB := by
  unfold State.writeReg; split <;> rfl
@[simp] theorem State.writeReg_busIn : (s.writeReg q v).busIn = s.busIn := by
  unfold State.writeReg; split <;> rfl
@[simp] theorem State.writeReg_now : (s.writeReg q v).now = s.now := by
  unfold State.writeReg; split <;> rfl
@[simp] theorem State.writeReg_obs : (s.writeReg q v).obs = s.obs := by
  unfold State.writeReg; split <;> rfl

/-- A register the configuration has takes the written byte, or ignores it when it is RO. -/
theorem State.writeReg_regs (h : q.present s.cfg = true) :
    (s.writeReg q v).regs = s.regs.write v q := by
  simp [State.writeReg, h]

end Sys2Proof.Machine
end

