-- ==== Sys2Proof/Laws/Components.lean ====
section
/-! SUPPORT. The small lemmas of the components: the merge of the Trigger FSM's writes, the dividers and
the crossbar cells. -/

namespace Sys2Proof.Machine

section Pick
variable {α : Type} (ws : List (Option α)) (v : α) (p : ConflictPolicy)

@[simp] theorem pick_nil : pick p ([] : List (Option α)) = none := by cases p <;> rfl

@[simp] theorem pick_none_cons : pick p (none :: ws) = pick p ws := by cases p <;> rfl

@[simp] theorem pick_earlier_some : pick .earlierWins (some v :: ws) = some v := rfl

@[simp] theorem pick_later_some :
    pick .laterWins (some v :: ws) = some ((pick .laterWins ws).getD v) := by
  simp [pick, List.getLast?_cons]

/-- One writer: the policy is irrelevant (R163). -/
@[simp] theorem pick_single : pick p [some v] = some v := by cases p <;> rfl

/-- A step that does not write a variable does not count in its merge (R163). -/
theorem pick_third_none (a b c : Option α) : pick p [a, b, none, c] = pick p [a, b, c] := by
  cases p <;> cases a <;> cases b <;> cases c <;> rfl

/-- Everything the merge of steps 2, 3 and 5 can keep, under either policy (R163). -/
theorem pick_three (a b c : Option α) :
    pick p [a, b, c] = match p with
      | .earlierWins => a.or (b.or c)
      | .laterWins => c.or (b.or a) := by
  cases p <;> cases a <;> cases b <;> cases c <;> rfl

@[simp] theorem pick_some_none : pick p [some v, none] = some v := by cases p <;> rfl

end Pick

@[simp] theorem gate_true (a : Assign) : gate true a = a := rfl
@[simp] theorem gate_false (a : Assign) : gate false a = {} := rfl

/-- Step 1 at a wall tick (R164). -/
theorem Channel.next_disabled (p : ConflictPolicy) (x : TriggerInputs) (c : Channel)
    (ht : x.tick = true) (he : x.en = false) :
    c.next p x = { c with es := .off, ic := 0, pc := 0, out := false } := by
  simp [Channel.next, Channel.assignment, TriggerInputs.disables, ht, he, Channel.commit, step1]

/-- An off-cycle with `es ≠ Init` changes nothing (R173). -/
theorem Channel.next_offCycle (p : ConflictPolicy) (x : TriggerInputs) (c : Channel)
    (ht : x.tick = false) (he : c.es ≠ .init) : c.next p x = c := by
  simp [Channel.next, Channel.assignment, TriggerInputs.disables, TriggerInputs.gated, ht, step4, he,
    merge, Channel.commit]

/-- A wall tick that finds the channel enabled, with `es ≠ Init`: steps 2, 3 and 5 are merged (R173). -/
theorem Channel.next_tick (p : ConflictPolicy) (x : TriggerInputs) (c : Channel)
    (ht : x.tick = true) (he : x.en = true) (hi : c.es ≠ .init) :
    c.next p x = c.commit (merge p [step2 x c, step3 x c, step5 c]) := by
  simp [Channel.next, Channel.assignment, TriggerInputs.disables, TriggerInputs.gated, ht, he, step4, hi,
    merge, pick_third_none]

/-- An off-cycle with `es = Init`: step 4 runs alone, under either policy (R171, R173). -/
theorem Channel.next_init (p : ConflictPolicy) (x : TriggerInputs) (c : Channel)
    (ht : x.tick = false) (hi : c.es = .init) :
    c.next p x = if x.p = 0 then { c with es := .active, out := true }
      else { c with es := .wait, pc := x.p - 1 } := by
  by_cases hp : x.p = 0#8 <;>
    simp [Channel.next, Channel.assignment, TriggerInputs.disables, TriggerInputs.gated, ht, step4, hi,
      merge, Channel.commit, hp]

/-- The Divider holds while there is no base strobe, but for the fall of its strobe (R143). -/
theorem Divider.next_noStrobe (period : Byte) (dv : Divider) :
    dv.next false period = { dv with strobe := false } := by
  simp [Divider.next, Divider.strobeNext, Divider.rollsOver]

/-- A wall tick is never followed by a wall tick (R143). -/
theorem Divider.next_afterTick (up : Bool) (period : Byte) (dv : Divider) (h : dv.strobe = true) :
    (dv.next up period).strobe = false := by
  simp [Divider.next, Divider.strobeNext, h]

/-- A cell whose select names an input latches it (R201). -/
theorem State.latchNext_inRange (s : State) (cell : Nat) (c : Byte) (b : Bool)
    (h : s.input (xbarSelect c) = some b) : s.latchNext cell c = b := by
  simp [State.latchNext, h]

/-- A cell whose select names no input latches the cycle's draw (R203). -/
theorem State.latchNext_outOfRange (s : State) (cell : Nat) (c : Byte)
    (h : s.input (xbarSelect c) = none) : s.latchNext cell c = Config.xbarOor s.now cell := by
  simp [State.latchNext, h]

end Sys2Proof.Machine
end

