-- ==== Sys2Proof/Laws/RegMap.lean ====
section
/-! SUPPORT. The address map and its decode undo each other (10_state.md R23, 30_encoding.md R82). -/

namespace Sys2Proof

/-! ### The fields of an address determine it -/

theorem addr_of_productChar : ∀ a : Byte, a.extractLsb' 3 5 = 0b00000 →
    BitVec.ofNat 8 (a.extractLsb' 0 3).toFin.val = a := by decide

theorem addr_of_xbarA : ∀ a : Byte, a.extractLsb' 3 5 = 0b00100 →
    BitVec.ofNat 8 (0x20 + (a.extractLsb' 0 3).toFin.val) = a := by decide

theorem addr_of_xbarB : ∀ a : Byte, a.extractLsb' 3 5 = 0b00101 →
    BitVec.ofNat 8 (0x28 + (a.extractLsb' 0 3).toFin.val) = a := by decide

theorem addr_of_trig : ∀ a : Byte, a.extractLsb' 6 2 = 0b01 → a.extractLsb' 2 1 = 0b0 →
    BitVec.ofNat 8 (0x40 + (a.extractLsb' 0 2).toFin.val + 8 * (a.extractLsb' 3 3).toFin.val) = a := by
  decide

theorem addr_of_trigReg (cfg : Config) (k : Fin 8) (f : BitVec 2) :
    (trigReg k f).addr cfg = some (BitVec.ofNat 8 (0x40 + f.toFin.val + 8 * k.val)) := by
  obtain ⟨n, hn⟩ := f
  have : n = 0 ∨ n = 1 ∨ n = 2 ∨ n = 3 := by omega
  rcases this with rfl | rfl | rfl | rfl <;> rfl

theorem trigReg_present (cfg : Config) (k : Fin 8) (f : BitVec 2) :
    (trigReg k f).present cfg = decide (k.val < cfg.nTrig) := by
  unfold trigReg; split_ifs <;> rfl

theorem trigReg_ne_resetMask (k : Fin 8) (f : BitVec 2) : trigReg k f ≠ .resetMask := by
  unfold trigReg; split_ifs <;> exact Reg.noConfusion

theorem trigReg_rw (k : Fin 8) (f : BitVec 2) : (trigReg k f).access = .rw := by
  unfold trigReg; split_ifs <;> rfl

/-- The decode of an address in the channel block. -/
theorem Config.fixedRegAt_channel (cfg : Config) (k : Fin 8) (f : BitVec 2) :
    cfg.fixedRegAt (BitVec.ofNat 8 (0x40 + f.toFin.val + 8 * k.val)) =
      if k.val < cfg.nTrig then some (trigReg k f) else none := by
  obtain ⟨n, hn⟩ := f
  have : n = 0 ∨ n = 1 ∨ n = 2 ∨ n = 3 := by omega
  rcases this with rfl | rfl | rfl | rfl <;> fin_cases k <;>
    (simp [Config.fixedRegAt]; try rfl)

/-- A register of the fixed map that the configuration has is found at its own address. -/
theorem Config.fixedRegAt_addr (cfg : Config) (r : Reg) (a : Byte) (hp : r.present cfg = true)
    (hr : r ≠ .resetMask) (ha : r.addr cfg = some a) : cfg.fixedRegAt a = some r := by
  cases r with
  | productId j => revert ha; fin_cases j <;> (intro ha; cases ha; rfl)
  | xbarA i => revert ha; fin_cases i <;> (intro ha; cases ha; rfl)
  | xbarB i => revert ha; fin_cases i <;> (intro ha; cases ha; rfl)
  | mode k =>
    cases ha; exact (cfg.fixedRegAt_channel k 0).trans (if_pos (of_decide_eq_true hp))
  | interval k =>
    cases ha; exact (cfg.fixedRegAt_channel k 1).trans (if_pos (of_decide_eq_true hp))
  | duration k =>
    cases ha; exact (cfg.fixedRegAt_channel k 2).trans (if_pos (of_decide_eq_true hp))
  | phase k =>
    cases ha; exact (cfg.fixedRegAt_channel k 3).trans (if_pos (of_decide_eq_true hp))
  | resetMask => exact absurd rfl hr
  | _ => cases ha; rfl

/-- What the fixed map finds at an address is a register of the configuration whose address it is. -/
theorem Config.fixedRegAt_some (cfg : Config) (a : Byte) (r : Reg) (h : cfg.fixedRegAt a = some r) :
    r.addr cfg = some a ∧ r.present cfg = true ∧ r ≠ .resetMask := by
  simp only [Config.fixedRegAt] at h
  split_ifs at h with h0 h1 h2 h3 h4 h5 h6 h7 h8 h9 h10 h11
  · cases h; exact ⟨congrArg some (by simpa using addr_of_productChar a h0), rfl, Reg.noConfusion⟩
  · cases h; exact ⟨congrArg some (by rw [← addr_of_productChar a h0, h2]; rfl), rfl, Reg.noConfusion⟩
  · cases h
    have h7 : (a.extractLsb' 0 3).toFin.val = 7 := by
      have := (a.extractLsb' 0 3).isLt
      simp only [BitVec.toNat] at *
      omega
    exact ⟨congrArg some (by rw [← addr_of_productChar a h0, h7]; rfl), rfl, Reg.noConfusion⟩
  · cases h; exact ⟨congrArg some h3.symm, rfl, Reg.noConfusion⟩
  · cases h; exact ⟨congrArg some h4.symm, rfl, Reg.noConfusion⟩
  · cases h; exact ⟨congrArg some h5.symm, rfl, Reg.noConfusion⟩
  · cases h; exact ⟨congrArg some h6.symm, rfl, Reg.noConfusion⟩
  · cases h; exact ⟨congrArg some h7.symm, rfl, Reg.noConfusion⟩
  · cases h; exact ⟨congrArg some (addr_of_xbarA a h8), rfl, Reg.noConfusion⟩
  · cases h; exact ⟨congrArg some (addr_of_xbarB a h9), rfl, Reg.noConfusion⟩
  · cases h; exact ⟨congrArg some h10.symm, rfl, Reg.noConfusion⟩
  · cases h
    refine ⟨?_, ?_, trigReg_ne_resetMask _ _⟩
    · rw [addr_of_trigReg, addr_of_trig a h11.1 h11.2.1]
    · rw [trigReg_present]; exact decide_eq_true h11.2.2

/-- What is found at an address is a register of the configuration whose address it is
(20_memory.md R60). -/
theorem Config.regAt_some (cfg : Config) (a : Byte) (r : Reg) (h : cfg.regAt a = some r) :
    r.addr cfg = some a ∧ r.present cfg = true := by
  unfold Config.regAt at h
  split at h
  · cases h; exact ⟨(cfg.fixedRegAt_some a _ ‹_›).1, (cfg.fixedRegAt_some a _ ‹_›).2.1⟩
  · split_ifs at h with hm
    cases h; exact ⟨hm, by simp [Reg.present, hm]⟩

/-- A register of the fixed map is found at its own address, whatever the reset mask's address is. -/
theorem Config.regAt_addr (cfg : Config) (r : Reg) (a : Byte) (hp : r.present cfg = true)
    (hr : r ≠ .resetMask) (ha : r.addr cfg = some a) : cfg.regAt a = some r := by
  simp [Config.regAt, cfg.fixedRegAt_addr r a hp hr ha]

/-- Where the fixed map has no register, only the reset mask can stand. -/
theorem Config.regAt_of_unmapped (cfg : Config) (a : Byte) (h : cfg.fixedRegAt a = none) :
    cfg.regAt a = if cfg.resetMaskAddr = some a then some .resetMask else none := by
  simp [Config.regAt, h]

/-- The channel registers are RW and the identification registers RO (10_state.md R22). -/
theorem Reg.write_ro (r : Reg) (h : r.access = .ro) :
    r = .hwRevision ∨ r = .gwRevision ∨ r = .cameraCount ∨ r = .gpioCount ∨ r = .triggerCount
      ∨ ∃ j, r = .productId j := by
  cases r <;> simp_all [Reg.access]

/-! ### The fields of a bus input word (30_encoding.md R80) -/

@[simp] theorem busWord_valid (v r : Bool) (a d : Byte) : (busWord v r a d).valid = v := by
  simp only [busWord, BusWord.valid, BitVec.getLsbD_append]; simp

@[simp] theorem busWord_rw (v r : Bool) (a d : Byte) : (busWord v r a d).rw = r := by
  simp only [busWord, BusWord.rw, BitVec.getLsbD_append]; simp

@[simp] theorem busWord_addr (v r : Bool) (a d : Byte) : (busWord v r a d).addr = a := by
  apply BitVec.eq_of_getLsbD_eq
  intro i hi
  have : ¬ (8 + i < 8) := by omega
  simp only [busWord, BusWord.addr, BitVec.getLsbD_extractLsb', BitVec.getLsbD_append]
  simp [this, hi]

@[simp] theorem busWord_data (v r : Bool) (a d : Byte) : (busWord v r a d).data = d := by
  apply BitVec.eq_of_getLsbD_eq
  intro i hi
  simp only [busWord, BusWord.data, BitVec.getLsbD_extractLsb', BitVec.getLsbD_append]
  simp [hi]

end Sys2Proof
end

