-- ==== Sys2Proof/Laws/Ops.lean ====
section
/-! SUPPORT. One lemma per shared operation, saying once everything it can do; and what exec and step can
do, of which every later proof is a consequence. -/

namespace Sys2Proof.Machine

@[simp] theorem idleCycle_eq (s : State) : idleCycle s = .next (s.cycle none) := rfl

@[simp] theorem readCycle_eq (r : Reg) (s : State) :
    readCycle r s = .next (s.cycle (some (s.readReg r))) := rfl

@[simp] theorem writeCycle_eq (r : Reg) (v : Byte) (s : State) :
    writeCycle r v s = .next ((s.writeReg r v).cycle none) := rfl

theorem State.readReg_present (s : State) (r : Reg) (h : r.present s.cfg = true) :
    s.readReg r = s.regs.read s.cfg r := by
  simp [State.readReg, h]

/-- A write of an RO register leaves the register file as it is (R114). -/
theorem RegFile.write_ro (f : RegFile) (v : Byte) (r : Reg) (h : r.access = .ro) : f.write v r = f := by
  cases r <;> simp_all [Reg.access, RegFile.write]

/-- A write of an RW register is what a later read of it returns (R111, R112). -/
theorem RegFile.read_write_self (cfg : Config) (f : RegFile) (v : Byte) (r : Reg)
    (h : r.access = .rw) : (f.write v r).read cfg r = v := by
  cases r <;> simp_all [Reg.access, RegFile.write, RegFile.read]

/-- A write leaves every other register as it is (R112). -/
theorem RegFile.read_write_other (cfg : Config) (f : RegFile) (v : Byte) (r q : Reg) (h : q ≠ r) :
    (f.write v r).read cfg q = f.read cfg q := by
  cases r <;> cases q <;>
    simp_all [RegFile.write, RegFile.read, Fin.ext_iff, eq_comm]

/-- The register at an address is what `x[a]` reads. -/
theorem State.x_of_regAt (s : State) (a : Byte) (r : Reg) (h : s.cfg.regAt a = some r) :
    s.x a = some (s.regs.read s.cfg r) := by
  simp [State.x, h]

/-- A read cycle of a register the configuration has. -/
theorem readCycle_present (r : Reg) (s : State) (h : r.present s.cfg = true) :
    readCycle r s = .next (s.cycle (some (s.regs.read s.cfg r))) := by
  rw [readCycle_eq, s.readReg_present r h]

/-- A write cycle of a register the configuration has. -/
theorem writeCycle_present (r : Reg) (v : Byte) (s : State) (h : r.present s.cfg = true) :
    writeCycle r v s = .next (State.cycle { s with regs := s.regs.write v r } none) := by
  simp [State.writeReg, h]

/-- A fallback read where the fixed map has nothing: the reset mask or a draw (R113, R131). -/
theorem fallbackReadCycle_unmapped (a : Byte) (s : State) (h : s.cfg.fixedRegAt a = none) :
    fallbackReadCycle a s = .next (s.cycle
      (some (if s.cfg.resetMaskAddr = some a then s.regs.resetMask else s.unmappedByte))) := by
  unfold fallbackReadCycle
  rw [s.cfg.regAt_of_unmapped a h]
  by_cases hm : s.cfg.resetMaskAddr = some a
  · simp only [hm, if_true]
    exact readCycle_present .resetMask s (by simp [Reg.present, hm])
  · simp only [hm, if_false]

/-- A fallback write where the fixed map has nothing: the reset mask or discarded (R113, R131). -/
theorem fallbackWriteCycle_unmapped (a v : Byte) (s : State) (h : s.cfg.fixedRegAt a = none) :
    fallbackWriteCycle a v s = .next ((s.afterBus (.wrUnmapped a v)).cycle none) := by
  unfold fallbackWriteCycle State.afterBus
  rw [s.cfg.regAt_of_unmapped a h]
  by_cases hm : s.cfg.resetMaskAddr = some a
  · simp only [hm, if_true]
    exact writeCycle_present .resetMask v s (by simp [Reg.present, hm])
  · simp only [hm, if_false]
    rfl

/-- Everything a bus operation can do: the write of phase W, then one cycle, and it never stops. -/
theorem exec_eq (i : Instr) (s : State) (h : i.wellFormed s.cfg = true) :
    exec i s = .next ((s.afterBus i).cycle (s.readResult i)) := by
  cases i with
  | rdTrigMode k => exact readCycle_present (.mode k) s h
  | wrTrigMode k v => exact writeCycle_present (.mode k) v s h
  | rdTrigInterval k => exact readCycle_present (.interval k) s h
  | wrTrigInterval k v => exact writeCycle_present (.interval k) v s h
  | rdTrigDuration k => exact readCycle_present (.duration k) s h
  | wrTrigDuration k v => exact writeCycle_present (.duration k) v s h
  | rdTrigPhase k => exact readCycle_present (.phase k) s h
  | wrTrigPhase k v => exact writeCycle_present (.phase k) v s h
  | rdUnmapped a => exact fallbackReadCycle_unmapped a s (Option.isNone_iff_eq_none.mp h)
  | wrUnmapped a v => exact fallbackWriteCycle_unmapped a v s (Option.isNone_iff_eq_none.mp h)
  | _ => rfl

/-- Phase W changes the register file and nothing else. -/
theorem State.afterBus_eq (s : State) (i : Instr) :
    s.afterBus i = { s with regs := (s.afterBus i).regs } := by
  cases i with
  | wrUnmapped a v => simp only [State.afterBus]; split <;> rfl
  | _ => rfl

@[simp] theorem State.afterBus_cfg (s : State) (i : Instr) : (s.afterBus i).cfg = s.cfg := by
  rw [s.afterBus_eq i]
@[simp] theorem State.afterBus_cd (s : State) (i : Instr) : (s.afterBus i).cd = s.cd := by
  rw [s.afterBus_eq i]
@[simp] theorem State.afterBus_dv (s : State) (i : Instr) : (s.afterBus i).dv = s.dv := by
  rw [s.afterBus_eq i]
@[simp] theorem State.afterBus_ch (s : State) (i : Instr) : (s.afterBus i).ch = s.ch := by
  rw [s.afterBus_eq i]
@[simp] theorem State.afterBus_latA (s : State) (i : Instr) : (s.afterBus i).latA = s.latA := by
  rw [s.afterBus_eq i]
@[simp] theorem State.afterBus_latB (s : State) (i : Instr) : (s.afterBus i).latB = s.latB := by
  rw [s.afterBus_eq i]
@[simp] theorem State.afterBus_busIn (s : State) (i : Instr) : (s.afterBus i).busIn = s.busIn := by
  rw [s.afterBus_eq i]
@[simp] theorem State.afterBus_now (s : State) (i : Instr) : (s.afterBus i).now = s.now := by
  rw [s.afterBus_eq i]

/-- What the decoder answers is well formed (30_encoding.md R81). -/
theorem decode_wellFormed (cfg : Config) (w : BusWord) : (decode cfg w).wellFormed cfg = true := by
  unfold decode
  split
  · split
    · rename_i r hr _
      obtain ⟨-, hp, hn⟩ := cfg.fixedRegAt_some _ r hr
      cases r <;> first | exact hp | rfl | exact absurd rfl hn
    · rename_i r hr _
      obtain ⟨-, hp, hn⟩ := cfg.fixedRegAt_some _ r hr
      cases r <;> first | exact hp | rfl | exact absurd rfl hn
    · rename_i hr _; exact Option.isNone_iff_eq_none.mpr hr
    · rename_i hr _; exact Option.isNone_iff_eq_none.mpr hr
  · rfl

/-- Everything a core cycle can do, from any state: it never stops (R224). -/
theorem step_eq (s : State) :
    step s = .next ((s.takeWord.afterBus (decode s.cfg s.busNow)).cycle
      (s.takeWord.readResult (decode s.cfg s.busNow))) :=
  exec_eq _ s.takeWord (decode_wellFormed s.cfg s.busNow)

/-- The write of phase W is the write of the register at the word's address, where there is one: what a
cycle with any bus write does to the register file (R112, R114, R131). -/
theorem State.afterBus_write (s : State) (w : BusWord) (r : Reg) (hv : w.valid = true) (hw : w.rw = true)
    (hr : s.cfg.regAt w.addr = some r) :
    s.afterBus (decode s.cfg w) = { s with regs := s.regs.write w.data r } := by
  cases hf : s.cfg.fixedRegAt w.addr with
  | none =>
    have hd : decode s.cfg w = .wrUnmapped w.addr w.data := by simp [decode, hv, hw, hf]
    simp only [s.cfg.regAt_of_unmapped _ hf, Option.ite_none_right_eq_some, Option.some.injEq] at hr
    obtain ⟨hm, rfl⟩ := hr
    simp [hd, State.afterBus, hm, RegFile.write]
  | some q =>
    have hd : decode s.cfg w = q.writeInstr w.addr w.data := by simp [decode, hv, hw, hf]
    simp only [Config.regAt, hf, Option.some.injEq] at hr
    subst hr
    have hn := (s.cfg.fixedRegAt_some _ _ hf).2.2
    rw [hd]
    cases q <;> first | rfl | exact absurd rfl hn

/-- One more cycle at the start of a run: a run never stops. -/
theorem runCycles_succ (n : Nat) (s : State) :
    runCycles (n + 1) s = runCycles n ((s.takeWord.afterBus (decode s.cfg s.busNow)).cycle
      (s.takeWord.readResult (decode s.cfg s.busNow))) := by
  have e : Sys2Proof.core.step s = _ := step_eq s
  simp only [runCycles, Host.Core.run, e]
  rfl

end Sys2Proof.Machine
end

