-- ==== Sys2Proof/Laws/PerInstr.lean ====
section
/-! SUPPORT. A statement for all instructions, made per instruction: the canonical word of each bus
operation has the bits that its row of opcode_table.json fixes (30_encoding.md R92). -/

namespace Sys2Proof.Laws.TableWord

/-- The operation's row of opcode_table.json, by its mnemonic, has the operation's canonical word under
its mask. -/
def Statement (i : Instr) : Prop :=
  ∃ r ∈ opcodeRows ++ fallbackRows, r.mnemonic = i.mnemonic ∧ encode i &&& r.mask = r.pattern

/-- The data byte of a word does not show under a mask whose low byte is 0. -/
theorem busWord_and_mask (b c : Bool) (a v : Byte) (m : BusWord) (h : m &&& 0x000FF#18 = 0#18) :
    busWord b c a v &&& m = busWord b c a 0 &&& m := by
  apply BitVec.eq_of_getLsbD_eq
  intro i hi
  rw [BitVec.getLsbD_and, BitVec.getLsbD_and]
  by_cases h8 : i < 8
  · have hb := congrArg (fun w => w.getLsbD i) h
    have hf : (0x000FF#18).getLsbD i = true := by interval_cases i <;> rfl
    simp only [BitVec.getLsbD_and, hf, Bool.and_true, BitVec.getLsbD_zero] at hb
    rw [hb, Bool.and_false, Bool.and_false]
  · simp only [busWord, BitVec.getLsbD_append, h8, if_false]

/-- Neither the address nor the data byte shows under the mask of the fallback rows. -/
theorem busWord_and_topBits (b c : Bool) (a v : Byte) :
    busWord b c a v &&& 0x30000#18 = busWord b c 0 0 &&& 0x30000#18 := by
  apply BitVec.eq_of_getLsbD_eq
  intro i hi
  rw [BitVec.getLsbD_and, BitVec.getLsbD_and]
  by_cases h16 : i < 16
  · have hf : (0x30000#18).getLsbD i = false := by interval_cases i <;> rfl
    rw [hf, Bool.and_false, Bool.and_false]
  · have h8 : ¬ i < 8 := by omega
    have h8' : ¬ i - 8 < 8 := by omega
    simp only [busWord, BitVec.getLsbD_append, h8, h8', if_false]

theorem nop : Statement (.nop) :=
  ⟨⟨"NOP", 0x00000, 0x20000, .always⟩, by simp [opcodeRows, fallbackRows], rfl,
    by decide⟩

theorem rdProductId (j : Fin 6) : Statement (.rdProductId j) :=
  ⟨⟨"RD.PRODUCT_ID", 0x20000, 0x3F800, .productChar⟩, by simp [opcodeRows, fallbackRows], rfl,
    by revert j; decide⟩

theorem wrProductId (j : Fin 6) (v : Byte) : Statement (.wrProductId j v) :=
  ⟨⟨"WR.PRODUCT_ID", 0x30000, 0x3F800, .productChar⟩, by simp [opcodeRows, fallbackRows], rfl,
    (busWord_and_mask true true (0b00000#5 ++ BitVec.ofNat 3 j.val) v _ rfl).trans
      (by clear v; revert j; decide)⟩

theorem rdHwRevision : Statement (.rdHwRevision) :=
  ⟨⟨"RD.HW_REVISION", 0x20600, 0x3FF00, .always⟩, by simp [opcodeRows, fallbackRows], rfl,
    by decide⟩

theorem wrHwRevision (v : Byte) : Statement (.wrHwRevision v) :=
  ⟨⟨"WR.HW_REVISION", 0x30600, 0x3FF00, .always⟩, by simp [opcodeRows, fallbackRows], rfl,
    (busWord_and_mask true true 0x06 v _ rfl).trans (by clear v; decide)⟩

theorem rdGwRevision : Statement (.rdGwRevision) :=
  ⟨⟨"RD.GW_REVISION", 0x20700, 0x3FF00, .always⟩, by simp [opcodeRows, fallbackRows], rfl,
    by decide⟩

theorem wrGwRevision (v : Byte) : Statement (.wrGwRevision v) :=
  ⟨⟨"WR.GW_REVISION", 0x30700, 0x3FF00, .always⟩, by simp [opcodeRows, fallbackRows], rfl,
    (busWord_and_mask true true 0x07 v _ rfl).trans (by clear v; decide)⟩

theorem rdCameraCount : Statement (.rdCameraCount) :=
  ⟨⟨"RD.CAMERA_COUNT", 0x20A00, 0x3FF00, .always⟩, by simp [opcodeRows, fallbackRows], rfl,
    by decide⟩

theorem wrCameraCount (v : Byte) : Statement (.wrCameraCount v) :=
  ⟨⟨"WR.CAMERA_COUNT", 0x30A00, 0x3FF00, .always⟩, by simp [opcodeRows, fallbackRows], rfl,
    (busWord_and_mask true true 0x0A v _ rfl).trans (by clear v; decide)⟩

theorem rdGpioCount : Statement (.rdGpioCount) :=
  ⟨⟨"RD.GPIO_COUNT", 0x20B00, 0x3FF00, .always⟩, by simp [opcodeRows, fallbackRows], rfl,
    by decide⟩

theorem wrGpioCount (v : Byte) : Statement (.wrGpioCount v) :=
  ⟨⟨"WR.GPIO_COUNT", 0x30B00, 0x3FF00, .always⟩, by simp [opcodeRows, fallbackRows], rfl,
    (busWord_and_mask true true 0x0B v _ rfl).trans (by clear v; decide)⟩

theorem rdTriggerCount : Statement (.rdTriggerCount) :=
  ⟨⟨"RD.TRIGGER_COUNT", 0x20C00, 0x3FF00, .always⟩, by simp [opcodeRows, fallbackRows], rfl,
    by decide⟩

theorem wrTriggerCount (v : Byte) : Statement (.wrTriggerCount v) :=
  ⟨⟨"WR.TRIGGER_COUNT", 0x30C00, 0x3FF00, .always⟩, by simp [opcodeRows, fallbackRows], rfl,
    (busWord_and_mask true true 0x0C v _ rfl).trans (by clear v; decide)⟩

theorem rdClockDivider : Statement (.rdClockDivider) :=
  ⟨⟨"RD.CLOCK_DIVIDER", 0x21400, 0x3FF00, .always⟩, by simp [opcodeRows, fallbackRows], rfl,
    by decide⟩

theorem wrClockDivider (v : Byte) : Statement (.wrClockDivider v) :=
  ⟨⟨"WR.CLOCK_DIVIDER", 0x31400, 0x3FF00, .always⟩, by simp [opcodeRows, fallbackRows], rfl,
    (busWord_and_mask true true 0x14 v _ rfl).trans (by clear v; decide)⟩

theorem rdPowerControl : Statement (.rdPowerControl) :=
  ⟨⟨"RD.POWER_CONTROL", 0x21500, 0x3FF00, .always⟩, by simp [opcodeRows, fallbackRows], rfl,
    by decide⟩

theorem wrPowerControl (v : Byte) : Statement (.wrPowerControl v) :=
  ⟨⟨"WR.POWER_CONTROL", 0x31500, 0x3FF00, .always⟩, by simp [opcodeRows, fallbackRows], rfl,
    (busWord_and_mask true true 0x15 v _ rfl).trans (by clear v; decide)⟩

theorem rdXbarA (i : Fin 8) : Statement (.rdXbarA i) :=
  ⟨⟨"RD.XBAR_A", 0x22000, 0x3F800, .always⟩, by simp [opcodeRows, fallbackRows], rfl,
    by revert i; decide⟩

theorem wrXbarA (i : Fin 8) (v : Byte) : Statement (.wrXbarA i v) :=
  ⟨⟨"WR.XBAR_A", 0x32000, 0x3F800, .always⟩, by simp [opcodeRows, fallbackRows], rfl,
    (busWord_and_mask true true (0b00100#5 ++ BitVec.ofNat 3 i.val) v _ rfl).trans
      (by clear v; revert i; decide)⟩

theorem rdXbarB (i : Fin 8) : Statement (.rdXbarB i) :=
  ⟨⟨"RD.XBAR_B", 0x22800, 0x3F800, .always⟩, by simp [opcodeRows, fallbackRows], rfl,
    by revert i; decide⟩

theorem wrXbarB (i : Fin 8) (v : Byte) : Statement (.wrXbarB i v) :=
  ⟨⟨"WR.XBAR_B", 0x32800, 0x3F800, .always⟩, by simp [opcodeRows, fallbackRows], rfl,
    (busWord_and_mask true true (0b00101#5 ++ BitVec.ofNat 3 i.val) v _ rfl).trans
      (by clear v; revert i; decide)⟩

theorem rdTriggerEnables : Statement (.rdTriggerEnables) :=
  ⟨⟨"RD.TRIGGER_ENABLES", 0x23C00, 0x3FF00, .always⟩, by simp [opcodeRows, fallbackRows], rfl,
    by decide⟩

theorem wrTriggerEnables (v : Byte) : Statement (.wrTriggerEnables v) :=
  ⟨⟨"WR.TRIGGER_ENABLES", 0x33C00, 0x3FF00, .always⟩, by simp [opcodeRows, fallbackRows], rfl,
    (busWord_and_mask true true 0x3C v _ rfl).trans (by clear v; decide)⟩

theorem rdTrigMode (k : Fin 8) : Statement (.rdTrigMode k) :=
  ⟨⟨"RD.TRIG_MODE", 0x24000, 0x3C700, .channel⟩, by simp [opcodeRows, fallbackRows], rfl,
    by revert k; decide⟩

theorem wrTrigMode (k : Fin 8) (v : Byte) : Statement (.wrTrigMode k v) :=
  ⟨⟨"WR.TRIG_MODE", 0x34000, 0x3C700, .channel⟩, by simp [opcodeRows, fallbackRows], rfl,
    (busWord_and_mask true true (0b01#2 ++ BitVec.ofNat 3 k.val ++ 0b000#3) v _ rfl).trans
      (by clear v; revert k; decide)⟩

theorem rdTrigInterval (k : Fin 8) : Statement (.rdTrigInterval k) :=
  ⟨⟨"RD.TRIG_INTERVAL", 0x24100, 0x3C700, .channel⟩, by simp [opcodeRows, fallbackRows], rfl,
    by revert k; decide⟩

theorem wrTrigInterval (k : Fin 8) (v : Byte) : Statement (.wrTrigInterval k v) :=
  ⟨⟨"WR.TRIG_INTERVAL", 0x34100, 0x3C700, .channel⟩, by simp [opcodeRows, fallbackRows], rfl,
    (busWord_and_mask true true (0b01#2 ++ BitVec.ofNat 3 k.val ++ 0b001#3) v _ rfl).trans
      (by clear v; revert k; decide)⟩

theorem rdTrigDuration (k : Fin 8) : Statement (.rdTrigDuration k) :=
  ⟨⟨"RD.TRIG_DURATION", 0x24200, 0x3C700, .channel⟩, by simp [opcodeRows, fallbackRows], rfl,
    by revert k; decide⟩

theorem wrTrigDuration (k : Fin 8) (v : Byte) : Statement (.wrTrigDuration k v) :=
  ⟨⟨"WR.TRIG_DURATION", 0x34200, 0x3C700, .channel⟩, by simp [opcodeRows, fallbackRows], rfl,
    (busWord_and_mask true true (0b01#2 ++ BitVec.ofNat 3 k.val ++ 0b010#3) v _ rfl).trans
      (by clear v; revert k; decide)⟩

theorem rdTrigPhase (k : Fin 8) : Statement (.rdTrigPhase k) :=
  ⟨⟨"RD.TRIG_PHASE", 0x24300, 0x3C700, .channel⟩, by simp [opcodeRows, fallbackRows], rfl,
    by revert k; decide⟩

theorem wrTrigPhase (k : Fin 8) (v : Byte) : Statement (.wrTrigPhase k v) :=
  ⟨⟨"WR.TRIG_PHASE", 0x34300, 0x3C700, .channel⟩, by simp [opcodeRows, fallbackRows], rfl,
    (busWord_and_mask true true (0b01#2 ++ BitVec.ofNat 3 k.val ++ 0b011#3) v _ rfl).trans
      (by clear v; revert k; decide)⟩

theorem rdUnmapped (a : Byte) : Statement (.rdUnmapped a) :=
  ⟨⟨"RD.UNMAPPED", 0x20000, 0x30000, .always⟩, by simp [opcodeRows, fallbackRows], rfl,
    (busWord_and_topBits true false a 0).trans (by decide)⟩

theorem wrUnmapped (a : Byte) (v : Byte) : Statement (.wrUnmapped a v) :=
  ⟨⟨"WR.UNMAPPED", 0x30000, 0x30000, .always⟩, by simp [opcodeRows, fallbackRows], rfl,
    (busWord_and_topBits true true a v).trans (by decide)⟩

end Sys2Proof.Laws.TableWord
end

