-- ==== Sys2Proof/Tests/Slice0.lean ====
section
/-! SUPPORT. The model's own tests: ill-formed terms refused, words written out from the spec's encodings,
one-step tests with values taken from 95_test_vectors.md, and for every obligation with hypotheses a
concrete state and operands that meet them. -/

namespace Sys2Proof.Tests

open Sys2Proof.Machine

/-! ### Well-formedness: an ill-formed term for each check -/

/-- N_TRIG = 4 in Config.vectors: channel 3 is the last. -/
theorem wf_channel_beyond_nTrig :
    (Instr.rdTrigMode 4).wellFormed Config.vectors = false
    ∧ (Instr.wrTrigMode 4 0).wellFormed Config.vectors = false
    ∧ (Instr.rdTrigInterval 7).wellFormed Config.vectors = false
    ∧ (Instr.wrTrigInterval 7 0).wellFormed Config.vectors = false
    ∧ (Instr.rdTrigDuration 5).wellFormed Config.vectors = false
    ∧ (Instr.wrTrigDuration 5 0).wellFormed Config.vectors = false
    ∧ (Instr.rdTrigPhase 4).wellFormed Config.vectors = false
    ∧ (Instr.wrTrigPhase 4 0).wellFormed Config.vectors = false
    ∧ (Instr.wrTrigPhase 3 0).wellFormed Config.vectors = true := by decide

/-- An UNMAPPED row with an address that another row selects. -/
theorem wf_unmapped_row_of_mapped_address :
    (Instr.rdUnmapped 0x14).wellFormed Config.vectors = false
    ∧ (Instr.wrUnmapped 0x5B 0).wellFormed Config.vectors = false
    ∧ (Instr.wrUnmapped 0x63 0).wellFormed Config.vectors = true := by decide

theorem wf_nTrig_range : ({ Config.vectors with nTrig := 0, xbarInputs := [] } : Config).valid = false
    ∧ ({ Config.vectors with nTrig := 9 } : Config).valid = false := by decide

theorem wf_clkdivMaxPeriod_zero : ({ Config.vectors with clkdivMaxPeriod := 0 } : Config).valid = false := by
  decide

theorem wf_equal_mode_codes :
    ({ Config.vectors with modes := { ModeCodes.ofSpec with oneShot := 0x02 } } : Config).valid = false := by
  decide

theorem wf_too_many_inputs :
    ({ Config.vectors with xbarInputs := List.replicate 33 0 } : Config).valid = false := by decide

theorem wf_input_of_absent_channel : ({ Config.vectors with xbarInputs := [4] } : Config).valid = false := by
  decide

theorem wf_resetMask_on_mapped_address :
    ({ Config.vectors with resetMaskAddr := some 0x15 } : Config).valid = false
    ∧ ({ Config.vectors with resetMaskAddr := some 0x80 } : Config).valid = true := by decide

theorem wf_cameraCount_not_the_tables : ({ Config.vectors with cameraCount := 0x05 } : Config).valid = false := by
  decide

theorem wf_unknown_product_code : ({ Config.vectors with cameraTable := [] } : Config).valid = false := by
  decide

theorem wf_vectors : Config.vectors.valid = true := by decide

/-- The error that configuration halts with, if it does. -/
def buildError (cfg : Config) : Option ConfigError :=
  match State.build cfg with
  | .ok _ => none
  | .error e => some e

/-- R8: a configuration that fails a constraint of R7 has no machine; the vectors' one has. -/
theorem wf_no_machine_of_invalid :
    buildError { Config.vectors with nTrig := 0, xbarInputs := [] } = some .constraintFails
    ∧ buildError { Config.vectors with clkdivMaxPeriod := 0 } = some .constraintFails
    ∧ buildError { Config.vectors with modes := { ModeCodes.ofSpec with idle := 0x00 } } =
        some .constraintFails
    ∧ buildError Config.vectors = none := by decide

/-- V6: two registers that both request address 0x14. -/
theorem wf_duplicate_address :
    (match buildMap [] [(.clockDivider, 0x14), (.powerControl, 0x14)] with
      | .ok _ => none
      | .error e => some e) = some (.duplicateAddress 0x14) := by decide

/-! ### Decode: words written out from 30_encoding.md R80 and R82 -/

/-- The answer of the table decoder: valid, rw, address, data, most significant bit first. -/
theorem decode_NOP : decodeTableWord 24 0b0_1_11111111_11111111 = some .nop := by decide
theorem decode_RD_PRODUCT_ID : decodeTableWord 24 0b1_0_00000_101_00000000 = some (.rdProductId 5) := by decide
theorem decode_WR_PRODUCT_ID : decodeTableWord 24 0b1_1_00000_001_10000001 = some (.wrProductId 1 0x81) := by
  decide
theorem decode_RD_HW_REVISION : decodeTableWord 24 0b1_0_00000110_00000000 = some .rdHwRevision := by decide
theorem decode_WR_HW_REVISION : decodeTableWord 24 0b1_1_00000110_11111111 = some (.wrHwRevision 0xFF) := by decide
theorem decode_RD_GW_REVISION : decodeTableWord 24 0b1_0_00000111_00000000 = some .rdGwRevision := by decide
theorem decode_WR_GW_REVISION : decodeTableWord 24 0b1_1_00000111_00000001 = some (.wrGwRevision 0x01) := by decide
theorem decode_RD_CAMERA_COUNT : decodeTableWord 24 0b1_0_00001010_00000000 = some .rdCameraCount := by decide
theorem decode_WR_CAMERA_COUNT : decodeTableWord 24 0b1_1_00001010_00000010 = some (.wrCameraCount 0x02) := by
  decide
theorem decode_RD_GPIO_COUNT : decodeTableWord 24 0b1_0_00001011_00000000 = some .rdGpioCount := by decide
theorem decode_WR_GPIO_COUNT : decodeTableWord 24 0b1_1_00001011_00000100 = some (.wrGpioCount 0x04) := by decide
theorem decode_RD_TRIGGER_COUNT : decodeTableWord 24 0b1_0_00001100_00000000 = some .rdTriggerCount := by decide
theorem decode_WR_TRIGGER_COUNT : decodeTableWord 24 0b1_1_00001100_00001000 = some (.wrTriggerCount 0x08) := by
  decide
theorem decode_RD_CLOCK_DIVIDER : decodeTableWord 24 0b1_0_00010100_00000000 = some .rdClockDivider := by decide
theorem decode_WR_CLOCK_DIVIDER : decodeTableWord 24 0b1_1_00010100_00000100 = some (.wrClockDivider 0x04) := by
  decide
theorem decode_RD_POWER_CONTROL : decodeTableWord 24 0b1_0_00010101_00000000 = some .rdPowerControl := by decide
theorem decode_WR_POWER_CONTROL : decodeTableWord 24 0b1_1_00010101_10100101 = some (.wrPowerControl 0xA5) := by
  decide
theorem decode_RD_XBAR_A : decodeTableWord 24 0b1_0_00100_110_00000000 = some (.rdXbarA 6) := by decide
theorem decode_WR_XBAR_A : decodeTableWord 24 0b1_1_00100_000_10000010 = some (.wrXbarA 0 0x82) := by decide
theorem decode_RD_XBAR_B : decodeTableWord 24 0b1_0_00101_111_00000000 = some (.rdXbarB 7) := by decide
theorem decode_WR_XBAR_B : decodeTableWord 24 0b1_1_00101_011_01000000 = some (.wrXbarB 3 0x40) := by decide
theorem decode_RD_TRIGGER_ENABLES : decodeTableWord 24 0b1_0_00111100_00000000 = some .rdTriggerEnables := by decide
theorem decode_WR_TRIGGER_ENABLES : decodeTableWord 24 0b1_1_00111100_11110000 = some (.wrTriggerEnables 0xF0) := by
  decide
theorem decode_RD_TRIG_MODE : decodeTableWord 24 0b1_0_01_001_000_00000000 = some (.rdTrigMode 1) := by decide
theorem decode_WR_TRIG_MODE : decodeTableWord 24 0b1_1_01_000_000_00000011 = some (.wrTrigMode 0 0x03) := by decide
/-- V10, cycle 12: the data bits of a RD are ignored. -/
theorem decode_RD_TRIG_INTERVAL : decodeTableWord 24 0b1_0_01_000_001_11111111 = some (.rdTrigInterval 0) := by
  decide
theorem decode_WR_TRIG_INTERVAL : decodeTableWord 24 0b1_1_01_010_001_00000101 = some (.wrTrigInterval 2 0x05) := by
  decide
theorem decode_RD_TRIG_DURATION : decodeTableWord 24 0b1_0_01_011_010_00000000 = some (.rdTrigDuration 3) := by
  decide
theorem decode_WR_TRIG_DURATION : decodeTableWord 24 0b1_1_01_000_010_00000010 = some (.wrTrigDuration 0 0x02) := by
  decide
theorem decode_RD_TRIG_PHASE : decodeTableWord 24 0b1_0_01_001_011_00000000 = some (.rdTrigPhase 1) := by decide
theorem decode_WR_TRIG_PHASE : decodeTableWord 24 0b1_1_01_000_011_00000001 = some (.wrTrigPhase 0 0x01) := by decide
/-- V10, cycle 7: channel 4 is unmapped with N_TRIG = 4. -/
theorem decode_RD_UNMAPPED : decodeTableWord 24 0b1_0_01_100_000_00000000 = some (.rdUnmapped 0x60) := by decide
/-- V10, cycle 6: address bit 2 set in the trigger block. -/
theorem decode_WR_UNMAPPED : decodeTableWord 24 0b1_1_01_000_100_00000010 = some (.wrUnmapped 0x44 0x02) := by decide

/-- A number with a bit above bit 17 is no bus input word. -/
theorem decode_too_wide : decodeTableWord 24 0x40000 = none ∧ decodeTableWord 16 0x2FFFF = some .nop := by decide

/-- The same address is mapped where N_TRIG = 5. -/
theorem decode_depends_on_nTrig :
    decode { Config.vectors with nTrig := 5 } 0x26000 = .rdTrigMode 4 := by decide

/-! ### One step, with values from 95_test_vectors.md -/

/-- The next state of an outcome, if it is one. -/
def after (r : Result) : Option State :=
  match r with
  | .next t => some t
  | .fault _ => none
  | .refused _ => none

/-- One step from a state with a word presented. -/
def present (s : State) (w : Nat) : Option State := after (step (s.withFetchWord 24 w))

/-- The read data of one step from reset with a word presented. -/
def readData (w : Nat) : Option Byte := (present State.reset w).bind (fun t => t.obs.result)

/-- V11: the identification registers. -/
theorem step_identification :
    readData 0x20000 = some 0x41 ∧ readData 0x20500 = some 0x46 ∧ readData 0x20600 = some 0x02
    ∧ readData 0x20700 = some 0x07 ∧ readData 0x20A00 = some 0x04 ∧ readData 0x20B00 = some 0x10
    ∧ readData 0x20C00 = some 0x04 := by decide

/-- V10, cycles 10 and 11: reset values read back. -/
theorem step_reset_values : readData 0x21400 = some 0x02 ∧ readData 0x24100 = some 0x00
    ∧ readData 0x00000 = none := by decide

/-- V10, cycle 2: a write of an RO register leaves the register file as it was. -/
theorem step_ro_write : (present State.reset 0x306FF).map (fun t => (t.regs, t.cfg)) =
    some (State.reset.regs, State.reset.cfg) := by decide

/-- V10, cycles 0 and 8. -/
theorem step_rw_write :
    (present State.reset 0x315A5).map (fun t => t.regs.powerControl) = some 0xA5
    ∧ (present State.reset 0x33CF0).map (fun t => t.regs.triggerEnables) = some 0xF0 := by decide

/-- V5, cycle 3: byte 0x40 forces the output high in the cycle of the write. -/
theorem step_xbar_forced_high :
    (present State.reset 0x32B40).map (fun t => (t.obs.xb[3], t.obs.xb[2], t.obs.xa[3])) =
      some (true, false, false) := by decide

/-- R131 and R208: the reset mask register of a configuration with the ResetController. -/
theorem step_reset_mask :
    (present { State.reset with cfg := { State.reset.cfg with resetMaskAddr := some 0x80 } } 0x38005).bind
      (fun t => t.obs.rst) = some #v[true, false, true, false, false, false, false, false] := by decide

/-- A channel's state. -/
def chan (es : ExecState) (ic dc pc : Byte) (out : Bool) : Channel :=
  { es := es, ic := ic, dc := dc, pc := pc, out := out }

/-- A state of the vectors' configuration with given operands and state of channel 3. -/
def at3 (tick en : Bool) (mode n d p : Byte) (c : Channel) : State :=
  { State.reset with
    dv := { State.reset.dv with strobe := tick }
    regs := { State.reset.regs with
      triggerEnables := if en then 0x08 else 0x00
      mode := State.reset.regs.mode.set 3 mode
      interval := State.reset.regs.interval.set 3 n
      duration := State.reset.regs.duration.set 3 d
      phase := State.reset.regs.phase.set 3 p }
    ch := State.reset.ch.set 3 c }

/-- The same under the other policy. -/
def later (s : State) : State := { s with cfg := { s.cfg with policy := .laterWins } }

/-- Channel 3 after one step with no bus operation. -/
def chan3 (s : State) : Option Channel := (present s 0x00000).map (fun t => t.ch[3])

/-- R166 and R167, `W2 = {}`: Idle and a zero Duration leave a channel at rest. -/
theorem step_holds_rest :
    chan3 (at3 true true 0x01 5 2 0 (chan .off 3 1 0 false)) = some (chan .off 3 1 0 false)
    ∧ chan3 (at3 true true 0x02 5 0 0 (chan .off 3 1 0 false)) = some (chan .off 3 1 0 false) := by decide

/-- V18, cycle 6 to 7 and 7 to 8: arming, then the phase delay begins. -/
theorem step_interval_arms :
    chan3 (at3 true true 0x02 5 2 2 Channel.reset) = some (chan .init 4 1 0 false)
    ∧ chan3 (at3 false true 0x02 5 2 2 (chan .init 4 1 0 false)) = some (chan .wait 4 1 1 false) := by decide

/-- V18, cycle 14 to 15 and 22 to 23: the output rises, and falls. -/
theorem step_interval_pulse :
    chan3 (at3 true true 0x02 5 2 2 (chan .wait 3 1 0 false)) = some (chan .active 2 1 0 true)
    ∧ chan3 (at3 true true 0x02 5 2 2 (chan .active 1 0 0 true)) = some (chan .off 0 0 0 false) := by decide

/-- V19, cycle 14 to 15: disable in mid-pulse. -/
theorem step_disable :
    chan3 (at3 true false 0x02 8 4 0 (chan .active 6 2 0 true)) = some (chan .off 0 2 0 false) := by decide

/-- V24, cycle 14 to 15: conflict K2 under both policies. -/
theorem step_K2 :
    chan3 (at3 true true 0x02 2 2 0 (chan .active 0 0 0 true)) = some (chan .init 1 1 0 false)
    ∧ chan3 (later (at3 true true 0x02 2 2 0 (chan .active 0 0 0 true))) = some (chan .off 1 1 0 false) := by
  decide

/-- V25, cycle 14 to 15: conflict K1 under both policies. -/
theorem step_K1 :
    chan3 (at3 true true 0x02 2 3 0 (chan .active 0 1 0 true)) = some (chan .init 1 2 0 true)
    ∧ chan3 (later (at3 true true 0x02 2 3 0 (chan .active 0 1 0 true))) = some (chan .init 1 0 0 true) := by
  decide

/-- V23, cycle 10 to 11: conflict K4 under both policies. -/
theorem step_K4 :
    chan3 (at3 true true 0x00 0 2 1 (chan .wait 0 1 0 false)) = some (chan .off 0 1 0 false)
    ∧ chan3 (later (at3 true true 0x00 0 2 1 (chan .wait 0 1 0 false))) = some (chan .active 0 1 0 true) := by
  decide

/-- V31, cycles 6 and 8: conflicts K5 and K6 under both policies. -/
theorem step_K5_K6 :
    chan3 (at3 true true 0x02 1 1 1 (chan .wait 0 0 0 false)) = some (chan .init 0 0 0 true)
    ∧ chan3 (later (at3 true true 0x02 1 1 1 (chan .wait 0 0 0 false))) = some (chan .active 0 0 0 true)
    ∧ chan3 (at3 true true 0x02 1 1 1 (chan .wait 0 0 0 true)) = some (chan .init 0 0 0 false) := by decide

/-- V32, cycle 14 to 15: conflict K3 under `earlier_wins`. -/
theorem step_K3 :
    chan3 (at3 true true 0x02 3 2 2 (chan .wait 1 0 0 true)) = some (chan .off 0 0 0 false) := by decide

/-- V3: the Mode reads Idle after a wall tick with the output high, and Stop after an off-cycle with it
low. -/
theorem step_self_clear :
    (present (at3 true true 0x03 0 3 0 (chan .active 0 2 0 true)) 0).map (fun t => t.regs.mode[3]) = some 0x01
    ∧ (present (at3 false true 0x01 0 3 0 (chan .off 0 0 0 false)) 0).map (fun t => t.regs.mode[3]) =
        some 0x00 := by decide

/-- V12 with C = 4, cycles 0 to 1, and V13 with P = 3: the roll-over of the Divider. -/
theorem step_dividers :
    (present { State.reset with cfg := { State.reset.cfg with clkdivMaxPeriod := 4 } } 0).map (fun t => t.cd) =
      some { counter := 3, strobe := true, clk := true }
    ∧ (present { State.reset with cd := { counter := 3, strobe := true, clk := true }
                                  regs := { State.reset.regs with clockDivider := 0x03 } } 0).map (fun t => t.dv) =
      some { counter := 0x02, strobe := true, clk := true } := by decide

/-- V15: a period byte of 0 loads 255. -/
theorem step_period_zero :
    (present { State.reset with cd := { counter := 0, strobe := true, clk := true } } 0x31400).map
      (fun t => t.dv.counter) = some 0xFF := by decide

/-- V5, cycles 4 to 5: the latch takes input 2, and the output follows in the next cycle. -/
theorem step_xbar_latch :
    let s := { State.reset with ch := State.reset.ch.set 2 (chan .active 0 0 0 true) }
    (present s 0x32082).map (fun t => (t.latA[0], t.obs.xa[0])) = some (true, false)
    ∧ (present { s with latA := s.latA.set 0 true } 0x320A2).map (fun t => t.obs.xa[0]) = some false
    ∧ (present { s with latA := s.latA.set 0 true } 0x32082).map (fun t => t.obs.xa[0]) = some true := by decide

/-! ### Witnesses: for each obligation with hypotheses, a state and operands that meet them together -/

/-- The vectors' state with the ResetController's mask register at 0x80. -/
def withResetCtrl : State :=
  { State.reset with cfg := { State.reset.cfg with resetMaskAddr := some 0x80 } }

/-- The hypotheses of a statement about channel 3 hold in `s` with NOP presented. -/
abbrev Meets (s : State) (Q : TriggerInputs → Channel → Prop) : Prop :=
  Instr.nop.wellFormed s.cfg = true ∧ (3 : Fin 8).val < s.cfg.nTrig
    ∧ Q ((s.afterBus .nop).triggerInputs 3) s.ch[3]

theorem witness_DecodeOfEncodeIsTheOperation :
    (Instr.wrTrigPhase 3 0xFF).wellFormed Config.vectors = true
    ∧ (Instr.rdUnmapped 0x60).wellFormed Config.vectors = true := by decide

theorem witness_EveryWordSelectsExactlyItsRow :
    BusWord.valid 0x1FFFF = false
    ∧ BusWord.valid 0x205FF = true ∧ Config.vectors.fixedRegAt (BusWord.addr 0x205FF) = some (.productId 5)
    ∧ BusWord.valid 0x35B01 = true ∧ Config.vectors.fixedRegAt (BusWord.addr 0x35B01) = some (.phase 3)
    ∧ BusWord.valid 0x3FFFF = true ∧ Config.vectors.fixedRegAt (BusWord.addr 0x3FFFF) = none
    ∧ BusWord.valid 0x26000 = true ∧ Config.vectors.fixedRegAt (BusWord.addr 0x26000) = none := by decide

theorem witness_WorkedEncodingsDecode : 1 ≤ Config.vectors.nTrig := by decide

theorem witness_MappedRegisterCount :
    Config.vectors.valid = true ∧ withResetCtrl.cfg.valid = true
    ∧ ({ Config.vectors with nTrig := 8 } : Config).valid = true := by decide

theorem witness_MapFailsExactlyOnACollision :
    ([((Reg.clockDivider, 0x14) : Reg × Byte), (.powerControl, 0x15)].map Prod.snd).Nodup
    ∧ ¬ ([((Reg.clockDivider, 0x14) : Reg × Byte), (.powerControl, 0x14)].map Prod.snd).Nodup := by decide

/-- The clauses in turn: a valid and an invalid configuration, the premises of the second clause, and an
error of each kind. -/
theorem witness_ConfigurationChecks :
    Config.vectors.valid = true
    ∧ ({ Config.vectors with nTrig := 0, xbarInputs := [] } : Config).valid = false
    ∧ (1 ≤ Config.vectors.nTrig ∧ Config.vectors.nTrig ≤ 8 ∧ 1 ≤ Config.vectors.clkdivMaxPeriod
      ∧ Config.vectors.modes.distinct = true ∧ Config.vectors.resetMaskAddr = none
      ∧ Config.vectors.xbarInputs = Config.specInputs Config.vectors.nTrig)
    ∧ buildError { Config.vectors with resetMaskAddr := some 0x15 } = some (.duplicateAddress 0x15)
    ∧ buildError { Config.vectors with xbarInputs := List.replicate 33 0 } = some (.selectTooWide 33)
    ∧ buildError { Config.vectors with cameraTable := [] } =
        some (.unknownProductCode Config.vectors.productId)
    ∧ buildError { Config.vectors with cameraCount := 0x05 } = some .constraintFails :=
  ⟨by decide, by decide, by decide, by decide, by decide, by decide, by decide⟩

theorem witness_StepRunsTheDecodedWord : 0x3FFFF < 2 ^ 18 := by decide

theorem witness_ChannelRegistersReadAndWrite : (3 : Fin 8).val < State.reset.cfg.nTrig := by decide

theorem witness_FallbackRowsReadAndWrite :
    (State.reset.cfg.fixedRegAt 0x60 = none ∧ State.reset.cfg.resetMaskAddr ≠ some 0x60)
    ∧ (withResetCtrl.cfg.fixedRegAt 0x80 = none ∧ withResetCtrl.cfg.resetMaskAddr = some 0x80) := by decide

theorem witness_ReadOfMappedAddressReturnsTheByteHeld :
    BusWord.valid 0x205FF = true ∧ BusWord.rw 0x205FF = false
    ∧ State.reset.x (BusWord.addr 0x205FF) = some 0x46 := by decide

theorem witness_WriteOfRwAddressReplacesThatByte :
    BusWord.valid 0x35B01 = true ∧ BusWord.rw 0x35B01 = true
    ∧ State.reset.cfg.regAt (BusWord.addr 0x35B01) = some (.phase 3) ∧ (Reg.phase 3).access = .rw := by decide

theorem witness_UnmappedAddressReadsADrawAndDiscardsWrites :
    (BusWord.valid 0x26000 = true ∧ State.reset.cfg.regAt (BusWord.addr 0x26000) = none
      ∧ BusWord.rw 0x26000 = false)
    ∧ (BusWord.valid 0x30811 = true ∧ State.reset.cfg.regAt (BusWord.addr 0x30811) = none
      ∧ BusWord.rw 0x30811 = true) := by decide

theorem witness_WriteOfRoAddressIsIgnored :
    BusWord.valid 0x306FF = true ∧ BusWord.rw 0x306FF = true
    ∧ State.reset.cfg.regAt (BusWord.addr 0x306FF) = some .hwRevision ∧ Reg.hwRevision.access = .ro := by decide

theorem witness_NopLeavesTheRegisterFile :
    BusWord.valid 0x1FFFF = false ∧ (3 : Fin 8).val < State.reset.cfg.nTrig
    ∧ State.reset.cfg.resetMaskAddr = none ∧ withResetCtrl.cfg.resetMaskAddr = some 0x80 := by decide

theorem witness_StepIsTheWholeCycleByAddress :
    (3 : Fin 8).val < State.reset.cfg.nTrig ∧ State.reset.cfg.resetMaskAddr = none
    ∧ withResetCtrl.cfg.resetMaskAddr = some 0x80 ∧ withResetCtrl.cfg.fixedRegAt 0x80 = none := by decide

theorem witness_OnlyBusWritesChangeOtherRegisters :
    (Instr.wrTrigPhase 3 0xFF).wellFormed State.reset.cfg = true
    ∧ ∀ k : Fin 8, k.val < State.reset.cfg.nTrig → (Reg.mode k).addr State.reset.cfg ≠ some 0x5B := by decide

theorem witness_RoRegistersNeverChange :
    State.reset.cfg.regAt 0x0C = some .triggerCount ∧ Reg.triggerCount.access = .ro := by decide

theorem witness_PowerControlIsStorageOnly :
    (Instr.wrTriggerEnables 0x0F).wellFormed State.reset.cfg = true
    ∧ Instr.wrTriggerEnables 0x0F ≠ .rdPowerControl
    ∧ ∀ u, Instr.wrTriggerEnables 0x0F ≠ .wrPowerControl u :=
  ⟨by decide, by decide, fun _ => Instr.noConfusion⟩

theorem witness_EnableBitsAboveTheChannelsAreInert :
    (Instr.wrTrigMode 3 0x02).wellFormed State.reset.cfg = true
    ∧ Instr.wrTrigMode 3 0x02 ≠ .rdTriggerEnables ∧ (∀ u, Instr.wrTrigMode 3 0x02 ≠ .wrTriggerEnables u)
    ∧ ∀ k : Nat, k < State.reset.cfg.nTrig →
        (0xF0 : Byte).getLsbD k = State.reset.regs.triggerEnables.getLsbD k :=
  ⟨by decide, by decide, fun _ => Instr.noConfusion, by decide⟩

/-- Clause 1 at an address that is no Mode register, clause 2 at one. -/
theorem witness_ReadAfterWriteReturnsTheWrittenByte :
    (State.reset.cfg.regAt 0x5B = some (.phase 3) ∧ (Reg.phase 3).access = .rw
      ∧ ({ State.reset with busIn := [wrWord 0x5B 7, rdWord 0x5B] } : State).busIn =
          wrWord 0x5B 7 :: rdWord 0x5B :: []
      ∧ ∀ k, Reg.phase 3 ≠ .mode k)
    ∧ (State.reset.cfg.regAt 0x58 = some (.mode 3) ∧ (Reg.mode 3).access = .rw
      ∧ ({ State.reset with busIn := [wrWord 0x58 3, rdWord 0x58] } : State).busIn =
          wrWord 0x58 3 :: rdWord 0x58 :: []) := by decide

theorem witness_ClockDividerStep :
    Instr.nop.wellFormed State.reset.cfg = true
    ∧ State.reset.cd.counter = 0
    ∧ ({ State.reset with cd := { State.reset.cd with counter := 1 } } : State).cd.counter ≠ 0 := by decide

theorem witness_DividerStep :
    Instr.nop.wellFormed State.reset.cfg = true
    ∧ (let s : State := { State.reset with cd := { State.reset.cd with strobe := true } };
        s.cd.strobe = true ∧ s.dv.counter = 0)
    ∧ (let s : State := { State.reset with
          cd := { State.reset.cd with strobe := true }, dv := { State.reset.dv with counter := 1 } };
        s.cd.strobe = true ∧ s.dv.counter ≠ 0)
    ∧ State.reset.cd.strobe = false := by decide

theorem witness_PeriodChangeIsDeferred :
    (¬ (State.reset.cd.strobe = true ∧ State.reset.dv.counter = 0))
    ∧ (let s : State := { State.reset with cd := { State.reset.cd with strobe := true } };
        s.cd.strobe = true ∧ s.dv.counter = 0) := by decide

theorem witness_BaseStrobePositions : 1 ≤ Config.vectors.clkdivMaxPeriod := by decide

theorem witness_WallTickPositions :
    1 ≤ Config.vectors.clkdivMaxPeriod
    ∧ 2 ≤ Config.vectors.clkdivMaxPeriod * periodOf Config.vectors.divInitialPeriod
    ∧ ∀ w ∈ [wrWord 0x15 0xA5, rdWord 0x14], wordWrites w 0x14 = false := by
  refine ⟨by decide, by decide, fun w hw => ?_⟩
  simp only [List.mem_cons, List.not_mem_nil, or_false] at hw
  rcases hw with rfl | rfl <;> decide

theorem witness_DisableForcesTheChannelOff :
    Meets (at3 true false 0x02 8 4 0 (chan .active 6 2 0 true)) (fun x _ => x.tick = true ∧ x.en = false)
    ∧ Meets (at3 false false 0x02 8 4 0 (chan .init 6 2 0 true)) (fun x _ => x.tick = false) := by decide

/-- With no phase delay expiring, and with one (conflict K4). -/
theorem witness_StopLowersTheOutput :
    Meets (at3 true true 0x00 8 4 0 (chan .active 6 0 0 true)) (fun x c =>
      x.tick = true ∧ x.en = true ∧ x.mode = .stop ∧ c.es ≠ .init ∧ ¬ c.PhaseEnds)
    ∧ Meets (at3 true true 0x00 0 2 1 (chan .wait 0 1 0 false)) (fun x c =>
      x.tick = true ∧ x.en = true ∧ x.mode = .stop ∧ c.es ≠ .init ∧ c.PhaseEnds) := by decide

theorem witness_UnmappedModeActsAsIdle :
    let m := State.reset.cfg.modes
    (3 : Fin 8).val < State.reset.cfg.nTrig ∧ m.distinct = true
    ∧ (0x05 : Byte) ∉ [m.stop, m.idle, m.interval, m.oneShot, m.constant]
    ∧ (let s := at3 true true 0x01 5 2 0 Channel.reset;
        s.dv.strobe = true ∧ s.regs.triggerEnables.getLsbD 3 = true
        ∧ s.ch[3].es ≠ .init ∧ s.ch[3].es ≠ .wait ∧ s.ch[3].out = false) := by decide

/-- One witness for each of the clauses: arming (with no pulse, and at the end of one), counting, and a
zero register, the last two with a channel at rest. -/
theorem witness_IntervalArmsOrCounts :
    Meets (at3 true true 0x02 1 1 0 Channel.reset) (fun x c =>
      x.tick = true ∧ x.en = true ∧ x.mode = .interval ∧ c.es ≠ .init ∧ x.Arms c ∧ c.out = false
      ∧ ¬ c.PhaseEnds)
    ∧ Meets (at3 true true 0x02 2 2 0 (chan .active 0 0 0 true)) (fun x c =>
      x.tick = true ∧ x.en = true ∧ x.mode = .interval ∧ c.es ≠ .init ∧ x.Arms c
      ∧ (c.out = false ∨ c.dc = 0))
    ∧ Meets (at3 true true 0x02 255 255 0 (chan .off 1 0 0 false)) (fun x c =>
      x.tick = true ∧ x.en = true ∧ x.mode = .interval ∧ c.es ≠ .init ∧ x.d ≠ 0 ∧ x.n ≠ 0 ∧ c.ic ≠ 0
      ∧ c.es ≠ .wait ∧ c.out = false)
    ∧ Meets (at3 true true 0x02 5 0 0 Channel.reset) (fun x c =>
      x.tick = true ∧ x.en = true ∧ x.mode = .interval ∧ c.es ≠ .init ∧ (x.d = 0 ∨ x.n = 0)
      ∧ c.es ≠ .wait ∧ c.out = false) := by decide

theorem witness_OneShotArmsOnceFromOff :
    Meets (at3 true true 0x03 0 1 0 Channel.reset) (fun x c =>
      x.tick = true ∧ x.en = true ∧ x.mode = .oneShot ∧ c.es ≠ .init ∧ (c.es = .off → c.out = false)
      ∧ x.d ≠ 0 ∧ c.es = .off)
    ∧ Meets (at3 true true 0x03 0 1 0 (chan .active 0 0 0 true)) (fun x c =>
      x.tick = true ∧ x.en = true ∧ x.mode = .oneShot ∧ c.es ≠ .init ∧ (c.es = .off → c.out = false)
      ∧ (x.d = 0 ∨ c.es ≠ .off))
    ∧ Meets (at3 true true 0x03 0 0 0 Channel.reset) (fun x c =>
      x.tick = true ∧ x.en = true ∧ x.mode = .oneShot ∧ c.es ≠ .init ∧ (c.es = .off → c.out = false)
      ∧ x.d = 0 ∧ c.es = .off) := by decide

theorem witness_ConstantArmsAndHolds :
    Meets (at3 true true 0x04 0 0 0 Channel.reset) (fun x c =>
      x.tick = true ∧ x.en = true ∧ x.mode = .constant ∧ c.es = .off)
    ∧ Meets (at3 true true 0x04 0 0 0 (chan .active 0 0 0 true)) (fun x c =>
      x.tick = true ∧ x.en = true ∧ x.mode = .constant ∧ c.es = .active)
    ∧ Meets (at3 true true 0x04 0 0 2 (chan .wait 0 0 1 false)) (fun x c =>
      x.tick = true ∧ x.en = true ∧ x.mode = .constant ∧ c.es = .wait ∧ c.pc ≠ 0)
    ∧ Meets (at3 true true 0x04 0 0 2 (chan .wait 0 0 0 false)) (fun x c =>
      x.tick = true ∧ x.en = true ∧ x.mode = .constant ∧ c.es = .wait ∧ c.pc = 0) := by decide

/-- One witness for each clause: the end of a pulse in Active and in Wait, and the countdown in Active, in
Wait at the end of the delay and in Wait before it (the state of V32, cycle 12). -/
theorem witness_DurationCountdown :
    let P := fun (x : TriggerInputs) (c : Channel) => x.tick = true ∧ x.en = true ∧ x.mode ≠ .constant
      ∧ x.mode ≠ .stop ∧ (c.es = .active ∨ c.es = .wait) ∧ c.out = true ∧ ¬ x.Arms c
    Meets (at3 true true 0x01 0 0 0 (chan .active 0 0 0 true)) (fun x c =>
      P x c ∧ c.dc = 0 ∧ ¬ c.PhaseEnds)
    ∧ Meets (at3 true true 0x02 3 2 2 (chan .wait 2 0 1 true)) (fun x c =>
      P x c ∧ c.dc = 0 ∧ ¬ c.PhaseEnds ∧ c.es = .wait)
    ∧ Meets (at3 true true 0x02 5 2 0 (chan .active 4 1 0 true)) (fun x c =>
      P x c ∧ c.dc ≠ 0 ∧ c.es = .active)
    ∧ Meets (at3 true true 0x02 3 2 2 (chan .wait 2 1 0 true)) (fun x c =>
      P x c ∧ c.dc ≠ 0 ∧ c.es = .wait ∧ c.pc = 0)
    ∧ Meets (at3 true true 0x02 3 2 2 (chan .wait 2 1 1 true)) (fun x c =>
      P x c ∧ c.dc ≠ 0 ∧ c.es = .wait ∧ c.pc ≠ 0) :=
  ⟨by decide, by decide, by decide, by decide, by decide⟩

theorem witness_PhaseResolution :
    Meets (at3 false true 0x02 5 2 0 (chan .init 4 1 0 false)) (fun x c =>
      x.tick = false ∧ c.es = .init ∧ x.p = 0)
    ∧ Meets (at3 false false 0x02 5 2 1 (chan .init 4 1 0 false)) (fun x c =>
      x.tick = false ∧ c.es = .init ∧ x.p ≠ 0) := by decide

/-- One witness for each clause: the end of the delay, the countdown with no pulse, with one that goes on
and with one that ends, and a high output in Constant. -/
theorem witness_PhaseCountdown :
    let P := fun (x : TriggerInputs) (c : Channel) => x.tick = true ∧ x.en = true ∧ x.mode ≠ .stop
      ∧ ¬ x.Arms c ∧ c.es = .wait
    let E := fun (x : TriggerInputs) (c : Channel) => c.PulseEnds ∧ x.mode ≠ .constant
    Meets (at3 true true 0x02 5 2 2 (chan .wait 3 1 0 false)) (fun x c =>
      P x c ∧ c.pc = 0 ∧ ¬ E x c ∧ c.out = false)
    ∧ Meets (at3 true true 0x02 5 2 2 (chan .wait 4 1 1 false)) (fun x c => P x c ∧ c.pc ≠ 0 ∧ ¬ E x c)
    ∧ Meets (at3 true true 0x02 3 2 2 (chan .wait 2 1 1 true)) (fun x c =>
      P x c ∧ c.pc ≠ 0 ∧ ¬ E x c ∧ c.out = true ∧ x.mode ≠ .constant)
    ∧ Meets (at3 true true 0x02 3 2 2 (chan .wait 2 0 1 true)) (fun x c => P x c ∧ c.pc ≠ 0 ∧ E x c)
    ∧ Meets (at3 true true 0x04 3 2 2 (chan .wait 2 0 1 true)) (fun x c =>
      P x c ∧ ¬ E x c ∧ (c.out = false ∨ x.mode = .constant)) :=
  ⟨by decide, by decide, by decide, by decide, by decide⟩

theorem witness_OffCycleHoldsTheChannel :
    Meets (at3 false false 0x02 5 2 2 (chan .wait 3 1 0 false)) (fun x c =>
      x.tick = false ∧ c.es ≠ .init) := by decide

/-- One witness for each row of the table. -/
theorem witness_ConflictTable :
    Meets (at3 true true 0x02 2 3 0 (chan .active 0 1 0 true)) (fun x c =>
      x.tick = true ∧ x.en = true ∧ c.es ≠ .init ∧ x.Arms c ∧ c.out = true ∧ c.dc ≠ 0 ∧ ¬ c.PhaseEnds)
    ∧ Meets (at3 true true 0x02 2 2 0 (chan .active 0 0 0 true)) (fun x c =>
      x.tick = true ∧ x.en = true ∧ c.es ≠ .init ∧ x.Arms c ∧ c.PulseEnds ∧ ¬ c.PhaseEnds)
    ∧ Meets (at3 true true 0x02 3 2 2 (chan .wait 1 0 0 true)) (fun x c =>
      x.tick = true ∧ x.en = true ∧ c.es ≠ .init ∧ c.PhaseEnds ∧ c.PulseEnds ∧ x.mode ≠ .constant
      ∧ x.mode ≠ .stop ∧ ¬ x.Arms c)
    ∧ Meets (at3 true true 0x00 0 2 1 (chan .wait 0 1 0 false)) (fun x c =>
      x.tick = true ∧ x.en = true ∧ c.es ≠ .init ∧ c.PhaseEnds ∧ x.mode = .stop)
    ∧ Meets (at3 true true 0x02 1 1 1 (chan .wait 0 0 0 false)) (fun x c =>
      x.tick = true ∧ x.en = true ∧ c.es ≠ .init ∧ c.PhaseEnds ∧ x.Arms c ∧ ¬ c.PulseEnds)
    ∧ Meets (at3 true true 0x02 1 1 1 (chan .wait 0 0 0 true)) (fun x c =>
      x.tick = true ∧ x.en = true ∧ c.es ≠ .init ∧ c.PhaseEnds ∧ x.Arms c ∧ c.PulseEnds) :=
  ⟨by decide, by decide, by decide, by decide, by decide, by decide⟩

theorem witness_PolicyMattersOnlyInTheConflicts :
    let s := at3 true true 0x02 5 2 0 (chan .active 4 1 0 true)
    let x := s.triggerInputs 3
    let c := s.ch[3]
    c.Inv x.tick
    ∧ ¬ (x.tick = true ∧ x.en = true ∧
        ((x.Arms c ∧ c.out = true)
          ∨ (c.PhaseEnds ∧ c.PulseEnds ∧ x.mode ≠ .constant)
          ∨ (c.PhaseEnds ∧ x.mode = .stop)
          ∨ (c.PhaseEnds ∧ x.Arms c))) :=
  ⟨⟨by decide, by decide, by decide, by decide, by decide⟩, by decide⟩

/-- Two states that differ in another channel. -/
theorem witness_ChannelsAreIndependent :
    let s := at3 true true 0x02 5 2 0 (chan .active 4 1 0 true)
    let s' : State := { s with ch := s.ch.set 0 (chan .active 9 9 9 true) }
    s ≠ s' ∧ (Instr.wrTrigMode 0 0x02).wellFormed s.cfg = true ∧ (3 : Fin 8).val < s.cfg.nTrig
    ∧ s.cfg = s'.cfg ∧ s.dv.strobe = s'.dv.strobe
    ∧ s.ch[3] = s'.ch[3]
    ∧ s.regs.triggerEnables.getLsbD 3 = s'.regs.triggerEnables.getLsbD 3
    ∧ s.regs.mode[3] = s'.regs.mode[3] ∧ s.regs.interval[3] = s'.regs.interval[3]
    ∧ s.regs.duration[3] = s'.regs.duration[3] ∧ s.regs.phase[3] = s'.regs.phase[3] := by decide

theorem witness_AbsentChannelsNeverChange :
    (Instr.wrTrigMode 3 0x02).wellFormed State.reset.cfg = true
    ∧ State.reset.cfg.nTrig ≤ (4 : Fin 8).val := by decide

theorem witness_ControllerRewritesMode :
    (Instr.wrTrigMode 3 0x03).wellFormed State.reset.cfg = true
    ∧ (3 : Fin 8).val < State.reset.cfg.nTrig := by decide

theorem witness_OnlyOneShotAndIdleAreRewritten :
    (Instr.wrTrigMode 3 0x01).wellFormed State.reset.cfg = true
    ∧ (3 : Fin 8).val < State.reset.cfg.nTrig := by decide

/-- Clause 1 in an off-cycle, clause 2 in a wall-tick cycle. -/
theorem witness_IdleIsTransientWhileTheOutputIsLow :
    let s := at3 false true 0x00 5 2 0 Channel.reset
    let s' := at3 true true 0x00 5 2 0 Channel.reset
    (3 : Fin 8).val < s.cfg.nTrig ∧ s.cfg.modes.distinct = true ∧ s.ch[3].out = false
    ∧ s'.ch[3].out = false ∧ s.dv.strobe = false ∧ s'.dv.strobe = true
    ∧ Instr.nop.wellFormed s'.cfg = true
    ∧ ((after (exec (.wrTrigMode 3 s'.cfg.modes.idle) s')).map fun t => t.ch[3].out) = some false := by decide

/-- Select 3 is the last input, select 4 names none. -/
theorem witness_CrossbarLatchStep :
    let s : State := { State.reset with regs := { State.reset.regs with
      xbarA := Vector.replicate 8 0x83, xbarB := Vector.replicate 8 0x84 } }
    Instr.nop.wellFormed s.cfg = true
    ∧ s.input (xbarSelect (s.afterBus .nop).regs.xbarA[7]) = some false
    ∧ xbarSelect (s.afterBus .nop).regs.xbarA[7] < s.cfg.nIn
    ∧ s.cfg.nIn ≤ xbarSelect (s.afterBus .nop).regs.xbarB[7] := by decide

theorem witness_CrossbarOutputFunction : (Instr.wrXbarA 0 0x82).wellFormed State.reset.cfg = true := by decide

/-- Cell 0 of A and of B, routed with input 2 and with input 3, and static with a select that names no
input. -/
theorem witness_CrossbarTracksItsInputOneCycleLate :
    let s : State := { State.reset with regs := { State.reset.regs with
      xbarA := State.reset.regs.xbarA.set 0 0x82, xbarB := State.reset.regs.xbarB.set 0 0x83 } }
    let q : State := { State.reset with regs := { State.reset.regs with
      xbarA := State.reset.regs.xbarA.set 0 0x5F, xbarB := State.reset.regs.xbarB.set 0 0x5F } }
    Instr.nop.wellFormed s.cfg = true ∧ (Instr.wrXbarB 1 0x82).wellFormed s.cfg = true
    ∧ (∀ b, Instr.nop ≠ .wrXbarA 0 b ∧ Instr.nop ≠ .wrXbarB 0 b)
    ∧ (∀ b, Instr.wrXbarB 1 0x82 ≠ .wrXbarA 0 b ∧ Instr.wrXbarB 1 0x82 ≠ .wrXbarB 0 b)
    ∧ s.input (xbarSelect s.regs.xbarA[0]) = some false ∧ xbarOe s.regs.xbarA[0] = true
    ∧ s.input (xbarSelect s.regs.xbarB[0]) = some false ∧ xbarOe s.regs.xbarB[0] = true
    ∧ q.input (xbarSelect q.regs.xbarA[0]) = none ∧ xbarOe q.regs.xbarA[0] = false
    ∧ q.input (xbarSelect q.regs.xbarB[0]) = none ∧ xbarOe q.regs.xbarB[0] = false :=
  ⟨by decide, by decide, fun _ => ⟨Instr.noConfusion, Instr.noConfusion⟩,
    fun b => ⟨Instr.noConfusion, fun h => by injection h with h; exact absurd h (by decide)⟩,
    by decide, by decide, by decide, by decide, by decide, by decide, by decide, by decide⟩

/-- Two states that differ in another cell. -/
theorem witness_CrossbarCellsAreIndependent :
    let s := State.reset
    let s' : State := { s with latA := s.latA.set 1 true, latB := s.latB.set 1 true }
    s ≠ s' ∧ (Instr.wrXbarA 0 0x82).wellFormed s.cfg = true ∧ s.cfg = s'.cfg ∧ s.now = s'.now
    ∧ (∀ n, s.input n = s'.input n)
    ∧ s.regs.xbarA[0] = s'.regs.xbarA[0] ∧ s.regs.xbarB[0] = s'.regs.xbarB[0]
    ∧ s.latA[0] = s'.latA[0] ∧ s.latB[0] = s'.latB[0] :=
  ⟨by decide, rfl, rfl, rfl, fun _ => rfl, rfl, rfl, by decide, by decide⟩

/-- Present, with a write of the mask and with none; and absent. -/
theorem witness_ResetLinesFollowTheMask :
    (Instr.wrUnmapped 0x80 0x05).wellFormed withResetCtrl.cfg = true
    ∧ Instr.nop.wellFormed withResetCtrl.cfg = true ∧ withResetCtrl.cfg.resetMaskAddr = some 0x80
    ∧ (∀ v, Instr.nop ≠ .wrUnmapped 0x80 v)
    ∧ Instr.nop.wellFormed State.reset.cfg = true ∧ State.reset.cfg.resetMaskAddr = none :=
  ⟨by decide, by decide, by decide, fun _ => Instr.noConfusion, by decide, by decide⟩

/-- A state in a wall tick that meets the invariants, and whose step arms channel 3. -/
theorem witness_InvariantKeptByEveryStep :
    let s := at3 true true 0x02 5 2 0 Channel.reset
    s.Inv ∧ s.dv.strobe = true ∧ (3 : Fin 8).val < s.cfg.nTrig
    ∧ (chan3 s).map (fun c => c.es) = some .init := by
  refine ⟨⟨by decide, ?_⟩, by decide, by decide, by decide⟩
  have h : ∀ k : Fin 8, let c := (at3 true true 0x02 5 2 0 Channel.reset).ch[k]
      (c.es = .off → c.out = false) ∧ (c.es ≠ .init) ∧ c.ic.toNat ≤ 254 ∧ c.dc.toNat ≤ 254
        ∧ c.pc.toNat ≤ 254 := by decide
  exact fun k _ => ⟨(h k).1, fun e => absurd e (h k).2.1, (h k).2.2.1, (h k).2.2.2.1, (h k).2.2.2.2⟩

theorem witness_CountersNeverWrap :
    (Instr.wrTrigDuration 3 0xFF).wellFormed State.reset.cfg = true
    ∧ (3 : Fin 8).val < State.reset.cfg.nTrig := by decide

theorem witness_ResetStateOfEveryConfiguration :
    (withResetCtrl.cfg.regAt 0x80 = some .resetMask ∧ Reg.resetMask.access = .rw)
    ∧ (Config.vectors.regAt 0x5B = some (.phase 3) ∧ (Reg.phase 3).access = .rw)
    ∧ Config.vectors.regAt 0x5C = none := by decide

theorem witness_QuiescentWithoutHostWrites :
    Config.vectors.valid = true ∧ Config.vectors.defaults = [] ∧ Config.vectors.modes = ModeCodes.ofSpec
    ∧ ∀ w ∈ [rdWord 0x14, 0x1FFFF], BusWord.valid w = true → BusWord.rw w = false := by
  refine ⟨by decide, rfl, rfl, fun w hw => ?_⟩
  simp only [List.mem_cons, List.not_mem_nil, or_false] at hw
  rcases hw with rfl | rfl <;> decide

/-- `s` in a cycle with a wall tick, and with one in every second cycle from there on. -/
def dense (s : State) : State :=
  { s with
    cfg := { s.cfg with clkdivMaxPeriod := 1 }
    regs := { s.regs with clockDivider := 0x01 }
    cd := { s.cd with strobe := true } }

/-- The hypotheses, and a number of cycles for each clause: tick numbers 1 to 4 with d = 2, p = 0. -/
theorem witness_OneShotFiresOnePulseAndClearsItself :
    let s := dense (at3 true true 0x03 0 2 0 Channel.reset)
    (3 : Fin 8).val < s.cfg.nTrig ∧ s.cfg.modes.distinct = true ∧ s.busIn = []
    ∧ s.regs.triggerEnables.getLsbD 3 = true ∧ s.regs.mode[3] = s.cfg.modes.oneShot
    ∧ s.regs.duration[3] ≠ 0 ∧ s.ch[3].es = .off ∧ s.ch[3].out = false
    ∧ s.dv.strobe = true
    ∧ wallTicks 1 s ≤ 0 + 1
    ∧ (0 + 2 ≤ wallTicks 3 s ∧ wallTicks 3 s ≤ 0 + 2)
    ∧ wallTicks 5 s = 0 + 2 + 1
    ∧ 0 + 2 + 2 ≤ wallTicks 7 s := by decide

/-- The longest interval; the second state reaches a high tick after two cycles. -/
theorem witness_IntervalModeIsPeriodic :
    (let s := at3 true true 0x02 255 1 253 Channel.reset;
      (3 : Fin 8).val < s.cfg.nTrig ∧ s.cfg.modes.distinct = true ∧ s.busIn = []
      ∧ s.regs.triggerEnables.getLsbD 3 = true ∧ s.regs.mode[3] = s.cfg.modes.interval
      ∧ s.regs.duration[3] ≠ 0
      ∧ s.regs.duration[3].toNat + s.regs.phase[3].toNat < s.regs.interval[3].toNat
      ∧ s.ch[3].es = .off ∧ s.ch[3].out = false ∧ s.ch[3].ic = 0 ∧ s.dv.strobe = true)
    ∧ (let s := dense (at3 true true 0x02 2 1 0 Channel.reset);
      s.regs.mode[3] = s.cfg.modes.interval ∧ wallTicks 2 s = 1
      ∧ ((after (runCycles 2 s)).map fun t => (t.dv.strobe, t.ch[3].out)) = some (true, true)) := by decide

end Sys2Proof.Tests
end

/-! PROOF. Decode and opcode table agree (30_encoding.md R81, R92). The table is read field by field:
where the fixed map has a register its row alone is selected, and where the map has none a row that is
no fallback would name an address the map has. -/

namespace Sys2Proof

/-! ### A bus input word is its four fields (30_encoding.md R80) -/

theorem BusWord.eq_busWord (w : BusWord) : w = busWord w.valid w.rw w.addr w.data := by
  apply BitVec.eq_of_getLsbD_eq
  intro i hi
  simp only [busWord, BitVec.getLsbD_append, BusWord.valid, BusWord.rw, BusWord.addr, BusWord.data,
    BitVec.getLsbD_extractLsb', BitVec.getLsbD_ofBool]
  interval_cases i <;> simp

theorem BusWord.ext_fields {w w' : BusWord} (hv : w.valid = w'.valid) (hr : w.rw = w'.rw)
    (ha : w.addr = w'.addr) (hd : w.data = w'.data) : w = w' := by
  rw [w.eq_busWord, w'.eq_busWord, hv, hr, ha, hd]

@[simp] theorem BusWord.and_valid (w m : BusWord) :
    BusWord.valid (w &&& m) = (w.valid && m.valid) := BitVec.getLsbD_and

@[simp] theorem BusWord.and_rw (w m : BusWord) :
    BusWord.rw (w &&& m) = (w.rw && m.rw) := BitVec.getLsbD_and

@[simp] theorem BusWord.and_addr (w m : BusWord) :
    BusWord.addr (w &&& m) = w.addr &&& m.addr := BitVec.extractLsb'_and

@[simp] theorem BusWord.and_data (w m : BusWord) :
    BusWord.data (w &&& m) = w.data &&& m.data := BitVec.extractLsb'_and

/-- `j` of the Product ID constraint stands in the low bits of the address. -/
theorem BusWord.extract_char (w : BusWord) : w.extractLsb' 8 3 = w.addr.extractLsb' 0 3 := by
  apply BitVec.eq_of_getLsbD_eq
  intro i hi
  have : i < 8 := by omega
  simp [BusWord.addr, hi, this]

/-- `k` of the channel constraint stands in bits 5:3 of the address. -/
theorem BusWord.extract_channel (w : BusWord) : w.extractLsb' 11 3 = w.addr.extractLsb' 3 3 := by
  apply BitVec.eq_of_getLsbD_eq
  intro i hi
  have : 3 + i < 8 := by omega
  simp [BusWord.addr, hi, this, ← Nat.add_assoc]

/-! ### When a row of the opcode table selects a word (R92) -/

/-- What selection by a row says about the fields of the word. -/
theorem OpcodeRow.selects_fields {cfg : Config} {w : BusWord} {r : OpcodeRow}
    (h : r.selects cfg w = true) :
    (w.valid && r.mask.valid) = r.pattern.valid
    ∧ w.addr &&& r.mask.addr = r.pattern.addr
    ∧ (r.constraint = .channel → (w.addr.extractLsb' 3 3).toNat < cfg.nTrig) := by
  obtain ⟨hp, hc⟩ := Bool.and_eq_true_iff.mp h
  have hp := of_decide_eq_true hp
  refine ⟨by simp [← hp], by simp [← hp], fun hch => ?_⟩
  simpa [hch, w.extract_channel] using hc

/-- No mask of the table has a bit in the data byte. -/
theorem mask_data_zero : ∀ r ∈ opcodeRows ++ fallbackRows, r.mask &&& 0x000FF#18 = 0#18 := by decide

/-- The rows that a word selects do not depend on its data byte. -/
theorem selectedRows_data (cfg : Config) (v rw : Bool) (a d : Byte) :
    selectedRows cfg (busWord v rw a d) = selectedRows cfg (busWord v rw a 0) := by
  have hsel (r : OpcodeRow) (hr : r ∈ opcodeRows ++ fallbackRows) :
      r.selects cfg (busWord v rw a d) = r.selects cfg (busWord v rw a 0) := by
    simp only [OpcodeRow.selects, Laws.TableWord.busWord_and_mask v rw a d _ (mask_data_zero r hr),
      BusWord.extract_char, BusWord.extract_channel, busWord_addr]
  simp only [selectedRows]
  rw [List.filter_congr fun r hr => hsel r (List.mem_append_left _ hr),
    List.filter_congr fun r hr => hsel r (List.mem_append_right _ hr)]

/-- The table sees `N_TRIG` only through the channel constraint: where the channel that a word names is
present, the table answers as it does for eight channels. -/
theorem selectedRows_present (cfg : Config) (w : BusWord)
    (h : (w.addr.extractLsb' 3 3).toNat < cfg.nTrig) :
    selectedRows cfg w = selectedRows { cfg with nTrig := 8 } w := by
  have h8 : (w.addr.extractLsb' 3 3).toNat < 8 := BitVec.isLt _
  have hsel : OpcodeRow.selects cfg w = OpcodeRow.selects { cfg with nTrig := 8 } w := by
    funext r
    simp only [OpcodeRow.selects, w.extract_channel, h, h8]
  simp only [selectedRows, hsel]

/-! ### No operation -/

/-- Every row after NOP's asks for `valid = 1`. -/
theorem tail_rows_valid : ∀ r ∈ opcodeRows.tail, r.pattern.valid = true := by decide

theorem selectedRows_nop (cfg : Config) (w : BusWord) (hv : w.valid = false) :
    selectedRows cfg w = ["NOP"] := by
  have hnop : OpcodeRow.selects cfg w ⟨"NOP", 0x00000, 0x20000, .always⟩ = true := by
    have hw : w &&& 0x20000#18 = 0x00000#18 := BusWord.ext_fields
      (by rw [BusWord.and_valid, hv]; rfl)
      (by rw [BusWord.and_rw]; exact Bool.and_false _)
      (by rw [BusWord.and_addr]; exact BitVec.and_zero)
      (by rw [BusWord.and_data]; exact BitVec.and_zero)
    simp [OpcodeRow.selects, hw]
  have htail : opcodeRows.tail.filter (OpcodeRow.selects cfg w) = [] := by
    refine List.filter_eq_nil_iff.mpr fun r hr hsel => ?_
    have := (OpcodeRow.selects_fields hsel).1
    simp [hv, tail_rows_valid r hr] at this
  have hhits : opcodeRows.filter (OpcodeRow.selects cfg w) =
      [⟨"NOP", 0x00000, 0x20000, .always⟩] := by
    rw [show opcodeRows = ⟨"NOP", 0x00000, 0x20000, .always⟩ :: opcodeRows.tail from rfl,
      List.filter_cons_of_pos hnop, htail]
  simp [selectedRows, hhits]

/-! ### An address of the fixed map -/

/-- Bits 5:3 of a channel register's address are the channel's number (R82). -/
theorem channel_of_addr : ∀ (k : Fin 8) (f : BitVec 2),
    ((BitVec.ofNat 8 (0x40 + f.toFin.val + 8 * k.val)).extractLsb' 3 3).toNat = k.val := by decide

/-- The row of a present channel's register is selected at its address and no other. -/
theorem selectedRows_channel (cfg : Config) (rw : Bool) (k : Fin 8) (f : BitVec 2) (a d : Byte)
    (hk : (trigReg k f).present cfg = true) (ha : (trigReg k f).addr cfg = some a) :
    selectedRows cfg (busWord true rw a 0) =
      [(if rw then (trigReg k f).writeInstr a d else (trigReg k f).readInstr a).mnemonic] := by
  rw [trigReg_present, decide_eq_true_eq] at hk
  rw [addr_of_trigReg, Option.some.injEq] at ha
  subst ha
  rw [selectedRows_present _ _ (by rwa [busWord_addr, channel_of_addr])]
  have hf : ∀ f : BitVec 2, f = 0 ∨ f = 1 ∨ f = 2 ∨ f = 3 := by decide
  rcases hf f with rfl | rfl | rfl | rfl <;> fin_cases k <;> cases rw <;> rfl

/-- Where the fixed map has a register, the row of its RD or WR operation is selected and no other. -/
theorem selectedRows_mapped (cfg : Config) (rw : Bool) (a d : Byte) (r : Reg)
    (h : cfg.fixedRegAt a = some r) :
    selectedRows cfg (busWord true rw a d) =
      [(if rw then r.writeInstr a d else r.readInstr a).mnemonic] := by
  obtain ⟨ha, hp, hn⟩ := cfg.fixedRegAt_some a r h
  rw [selectedRows_data]
  cases r with
  | resetMask => exact absurd rfl hn
  | productId j => revert ha; fin_cases j <;> (intro ha; cases ha; cases rw <;> rfl)
  | xbarA i => revert ha; fin_cases i <;> (intro ha; cases ha; cases rw <;> rfl)
  | xbarB i => revert ha; fin_cases i <;> (intro ha; cases ha; cases rw <;> rfl)
  | mode k => exact selectedRows_channel cfg rw k 0 a d hp ha
  | interval k => exact selectedRows_channel cfg rw k 1 a d hp ha
  | duration k => exact selectedRows_channel cfg rw k 2 a d hp ha
  | phase k => exact selectedRows_channel cfg rw k 3 a d hp ha
  | _ => cases ha; cases rw <;> rfl

/-! ### An unmapped address -/

/-- The forms of the rows that are no fallback: NOP, one address, a block of addresses with the same
upper five bits, or a register of every channel. -/
theorem opcodeRows_forms : ∀ r ∈ opcodeRows,
    (r.mask.valid = true ∧ r.pattern.valid = false)
    ∨ (r.mask.addr = 0xFF
        ∧ r.pattern.addr ∈ [0x06, 0x07, 0x0A, 0x0B, 0x0C, 0x14, 0x15, (0x3C : Byte)])
    ∨ (r.mask.addr = 0xF8 ∧ r.pattern.addr.extractLsb' 3 5 ∈ [0b00000, 0b00100, (0b00101 : BitVec 5)])
    ∨ (r.mask.addr = 0xC7 ∧ r.constraint = .channel
        ∧ r.pattern.addr.extractLsb' 6 2 = 0b01 ∧ r.pattern.addr.extractLsb' 2 1 = 0b0) := by decide

theorem high5_of_mask : ∀ a : Byte, (a &&& 0xF8).extractLsb' 3 5 = a.extractLsb' 3 5 := by decide

theorem channelBits_of_mask : ∀ a : Byte,
    (a &&& 0xC7).extractLsb' 6 2 = a.extractLsb' 6 2
    ∧ (a &&& 0xC7).extractLsb' 2 1 = a.extractLsb' 2 1 := by decide

/-- The fixed map leaves no hole in the block of Product ID and revisions or in the crossbar blocks
(R82). -/
theorem Config.fixedRegAt_block (cfg : Config) (a : Byte)
    (h : a.extractLsb' 3 5 ∈ [0b00000, 0b00100, (0b00101 : BitVec 5)]) :
    (cfg.fixedRegAt a).isSome = true := by
  simp only [List.mem_cons, List.not_mem_nil, or_false] at h
  rcases h with h | h | h <;> simp [Config.fixedRegAt, h] <;> split_ifs <;> rfl

/-- A row that is no fallback and selects a bus operation names an address of the fixed map. -/
theorem fixedRegAt_isSome_of_selects {cfg : Config} {w : BusWord} {r : OpcodeRow} (hr : r ∈ opcodeRows)
    (hv : w.valid = true) (hsel : r.selects cfg w = true) : (cfg.fixedRegAt w.addr).isSome = true := by
  obtain ⟨hvalid, haddr, hchan⟩ := OpcodeRow.selects_fields hsel
  rcases opcodeRows_forms r hr with ⟨hm, hp⟩ | ⟨hm, hp⟩ | ⟨hm, hp⟩ | ⟨hm, hc, hp6, hp2⟩
  · simp [hv, hm, hp] at hvalid
  · have ha : w.addr = r.pattern.addr := by
      rw [← haddr, hm]; exact BitVec.and_allOnes.symm
    rw [ha]
    generalize r.pattern.addr = p at hp
    fin_cases hp <;> rfl
  · rw [← haddr, hm, high5_of_mask] at hp
    exact cfg.fixedRegAt_block w.addr hp
  · obtain ⟨h6, h2⟩ := channelBits_of_mask w.addr
    rw [← haddr, hm] at hp6 hp2
    have hk : (w.addr.extractLsb' 3 3).toFin.val < cfg.nTrig := hchan hc
    rw [← addr_of_trig w.addr (h6.symm.trans hp6) (h2.symm.trans hp2), Config.fixedRegAt_channel,
      if_pos hk]
    rfl

/-- The fallback rows look at `valid` and `rw` alone. -/
theorem fallbackRows_selects (cfg : Config) (rw : Bool) (a d : Byte) :
    fallbackRows.filter (OpcodeRow.selects cfg (busWord true rw a d)) =
      fallbackRows.filter (OpcodeRow.selects cfg (busWord true rw 0 0)) := by
  refine List.filter_congr fun r hr => ?_
  have hform : ∀ r ∈ fallbackRows, r.mask = 0x30000#18 ∧ r.constraint = .always := by decide
  obtain ⟨hm, hc⟩ := hform r hr
  simp only [OpcodeRow.selects, hm, hc, Laws.TableWord.busWord_and_topBits true rw a d]

/-- Where the fixed map has no register, the fallback row alone is selected. -/
theorem selectedRows_unmapped (cfg : Config) (rw : Bool) (a d : Byte) (h : cfg.fixedRegAt a = none) :
    selectedRows cfg (busWord true rw a d) = [if rw then "WR.UNMAPPED" else "RD.UNMAPPED"] := by
  have hhits : opcodeRows.filter (OpcodeRow.selects cfg (busWord true rw a d)) = [] := by
    refine List.filter_eq_nil_iff.mpr fun r hr hsel => ?_
    have := fixedRegAt_isSome_of_selects hr (busWord_valid ..) hsel
    simp [h] at this
  simp only [selectedRows, hhits, List.isEmpty_nil, if_true, fallbackRows_selects]
  cases rw <;> rfl

/-! ### The decode in its order (R81), and completion -/

theorem decode_invalid (cfg : Config) (w : BusWord) (hv : w.valid = false) : decode cfg w = .nop := by
  simp [decode, hv]

theorem decode_mapped (cfg : Config) (w : BusWord) (r : Reg) (hv : w.valid = true)
    (h : cfg.fixedRegAt w.addr = some r) :
    decode cfg w = if w.rw then r.writeInstr w.addr w.data else r.readInstr w.addr := by
  cases hw : w.rw <;> simp [decode, hv, h, hw]

theorem decode_unmapped (cfg : Config) (w : BusWord) (hv : w.valid = true)
    (h : cfg.fixedRegAt w.addr = none) :
    decode cfg w = if w.rw then .wrUnmapped w.addr w.data else .rdUnmapped w.addr := by
  cases hw : w.rw <;> simp [decode, hv, h, hw]

/-- A word selects exactly one row, the one of the operation it decodes to (R92). -/
theorem selectedRows_decode (cfg : Config) (w : BusWord) :
    selectedRows cfg w = [(decode cfg w).mnemonic] := by
  cases hv : w.valid with
  | false => rw [selectedRows_nop cfg w hv, decode_invalid cfg w hv]; rfl
  | true =>
    have hw : w = busWord true w.rw w.addr w.data := hv ▸ w.eq_busWord
    cases h : cfg.fixedRegAt w.addr with
    | some r =>
      rw [decode_mapped cfg w r hv h]
      exact (congrArg (selectedRows cfg) hw).trans (selectedRows_mapped cfg w.rw w.addr w.data r h)
    | none =>
      rw [decode_unmapped cfg w hv h]
      refine (congrArg (selectedRows cfg) hw).trans
        ((selectedRows_unmapped cfg w.rw w.addr w.data h).trans ?_)
      cases w.rw <;> rfl

/-- Every operation, of this configuration or not, runs a cycle from every state: none traps. -/
theorem exec_completes (i : Instr) (s : Machine.State) : ∃ t, Machine.exec i s = .next t := by
  cases i with
  | rdUnmapped a =>
    change ∃ t, Machine.fallbackReadCycle a s = .next t
    unfold Machine.fallbackReadCycle
    split <;> exact ⟨_, rfl⟩
  | wrUnmapped a v =>
    change ∃ t, Machine.fallbackWriteCycle a v s = .next t
    unfold Machine.fallbackWriteCycle
    split <;> exact ⟨_, rfl⟩
  | _ => exact ⟨_, rfl⟩

/-- Settles O3: the decode's order by its three equations, the one selected row by the cases of that
order, completion by the cases of the operation. -/
theorem everyWordSelectsExactlyItsRow : Obligations.EveryWordSelectsExactlyItsRow := fun cfg w =>
  ⟨decode_invalid cfg w, fun hv r h => decode_mapped cfg w r hv h, decode_unmapped cfg w,
    selectedRows_decode cfg w, exec_completes (decode cfg w)⟩

end Sys2Proof

/-! PROOF. Bus operations by address (40_register_file_bus_ops.md R111, R112, R114). What the decoded
operation does in phase W and what it reads is said once for a register at the word's address; the
obligations are that a cycle from there is a NOP cycle. -/

namespace Sys2Proof.Machine

/-! ### The operation of a register of the fixed map -/

/-- The RD operation of a register writes nothing in phase W. -/
theorem State.afterBus_readInstr (s : State) (a : Byte) (r : Reg) : s.afterBus (r.readInstr a) = s := by
  cases r <;> rfl

/-- The RD operation of a register that has a row returns the byte it holds (R111). The reset mask has no
row and is read by the fallback (R131). -/
theorem State.readResult_readInstr (s : State) (a : Byte) (r : Reg) (hr : r ≠ .resetMask) :
    s.readResult (r.readInstr a) = some (s.regs.read s.cfg r) := by
  cases r with
  | resetMask => exact absurd rfl hr
  | _ => rfl

/-- The WR operation of a register returns no byte. -/
theorem State.readResult_writeInstr (s : State) (a v : Byte) (r : Reg) :
    s.readResult (r.writeInstr a v) = none := by
  cases r <;> rfl

/-! ### The operation of a word (R81) -/

/-- A word with `rw = 0` writes nothing in phase W, wherever its address is (R111, R113). -/
theorem State.afterBus_read (s : State) (w : BusWord) (hv : w.valid = true) (hw : w.rw = false) :
    s.afterBus (decode s.cfg w) = s := by
  cases hf : s.cfg.fixedRegAt w.addr with
  | none => simp [decode_unmapped s.cfg w hv hf, hw, State.afterBus]
  | some q => simp [decode_mapped s.cfg w q hv hf, hw, s.afterBus_readInstr]

/-- A word with `rw = 1` returns no byte, wherever its address is. -/
theorem State.readResult_write (s : State) (w : BusWord) (hv : w.valid = true) (hw : w.rw = true) :
    s.readResult (decode s.cfg w) = none := by
  cases hf : s.cfg.fixedRegAt w.addr with
  | none => simp [decode_unmapped s.cfg w hv hf, hw, State.readResult]
  | some q => simp [decode_mapped s.cfg w q hv hf, hw, s.readResult_writeInstr]

/-- A word with `rw = 0` returns the byte of the register at its address, the reset mask included (R111,
R131). -/
theorem State.readResult_read (s : State) (w : BusWord) (r : Reg) (hv : w.valid = true)
    (hw : w.rw = false) (hr : s.cfg.regAt w.addr = some r) :
    s.readResult (decode s.cfg w) = some (s.regs.read s.cfg r) := by
  cases hf : s.cfg.fixedRegAt w.addr with
  | none =>
    obtain ⟨hm, rfl⟩ : s.cfg.resetMaskAddr = some w.addr ∧ Reg.resetMask = r := by
      simpa [s.cfg.regAt_of_unmapped _ hf] using hr
    simp [decode_unmapped s.cfg w hv hf, hw, State.readResult, hm, RegFile.read]
  | some q =>
    obtain rfl : q = r := by simpa [Config.regAt, hf] using hr
    have hq := (s.cfg.fixedRegAt_some _ _ hf).2.2
    simp [decode_mapped s.cfg w q hv hf, hw, s.readResult_readInstr _ q hq]

/-! ### The cycle of a word -/

/-- The whole cycle of a read of a mapped address (R111). -/
theorem exec_read (s : State) (w : BusWord) (r : Reg) (hv : w.valid = true) (hw : w.rw = false)
    (hr : s.cfg.regAt w.addr = some r) :
    exec (decode s.cfg w) s = .next (s.cycle (some (s.regs.read s.cfg r))) := by
  rw [exec_eq _ s (decode_wellFormed s.cfg w), s.afterBus_read w hv hw, s.readResult_read w r hv hw hr]

/-- The whole cycle of a write of a mapped address (R112, R114). -/
theorem exec_write (s : State) (w : BusWord) (r : Reg) (hv : w.valid = true) (hw : w.rw = true)
    (hr : s.cfg.regAt w.addr = some r) :
    exec (decode s.cfg w) s = .next (State.cycle { s with regs := s.regs.write w.data r } none) := by
  rw [exec_eq _ s (decode_wellFormed s.cfg w), s.afterBus_write w r hv hw hr, s.readResult_write w hv hw]

/-- A cycle from `s` that returns `b` is a NOP cycle of `s` but for that byte. -/
theorem readsAs_of_exec {i : Instr} {s : State} {b : Byte} (h : exec i s = .next (s.cycle (some b))) :
    ReadsAs i s b :=
  ⟨_, _, h, rfl, s.cycle_eq_update b⟩

/-- A cycle from `p` that returns no byte is a NOP cycle of `p`. -/
theorem actsAsNopIn_of_exec {i : Instr} {s p : State} (h : exec i s = .next (p.cycle none)) :
    ActsAsNopIn i s p :=
  ⟨_, h, rfl⟩

/-! ### The register file by address after a write -/

/-- One register stands at one address only. -/
theorem regAt_injective (cfg : Config) {a b : Byte} {r : Reg} (ha : cfg.regAt a = some r)
    (hb : cfg.regAt b = some r) : a = b :=
  Option.some.inj ((cfg.regAt_some a r ha).1.symm.trans (cfg.regAt_some b r hb).1)

/-- The address of a written RW register reads as the written byte (R112). -/
theorem State.x_write_self (s : State) (a v : Byte) (r : Reg) (hr : s.cfg.regAt a = some r)
    (hrw : r.access = .rw) : State.x { s with regs := s.regs.write v r } a = some v :=
  (State.x_of_regAt { s with regs := s.regs.write v r } a r hr).trans
    (congrArg some (s.regs.read_write_self s.cfg v r hrw))

/-- Every address but the written register's reads as before, mapped or not (R112). -/
theorem State.x_write_other (s : State) (a b v : Byte) (r : Reg) (hr : s.cfg.regAt a = some r)
    (hne : b ≠ a) : State.x { s with regs := s.regs.write v r } b = s.x b := by
  refine Option.map_congr fun q hq => RegFile.read_write_other _ _ _ _ _ ?_
  rintro rfl
  exact hne (regAt_injective s.cfg hq hr)

/-! ### The obligations -/

/-- Settles O16: the byte held at the address is the byte of the register there, which the cycle
returns. -/
theorem readOfMappedAddressReturnsTheByteHeld : Obligations.ReadOfMappedAddressReturnsTheByteHeld := by
  intro s w b hv hw hx
  obtain ⟨r, hr, rfl⟩ := Option.map_eq_some_iff.mp hx
  exact readsAs_of_exec (exec_read s w r hv hw hr)

/-- Settles O17: the register file is the one with the register at the address written, and no other
address holds that register. -/
theorem writeOfRwAddressReplacesThatByte : Obligations.WriteOfRwAddressReplacesThatByte :=
  fun s w r hv hw hr hrw =>
    ⟨s.regs.write w.data r, actsAsNopIn_of_exec (exec_write s w r hv hw hr),
      s.x_write_self w.addr w.data r hr hrw, fun a ha => s.x_write_other w.addr a w.data r hr ha⟩

/-- Settles O19: a write of an RO register leaves the register file as it is, so the cycle is a NOP cycle
of the same state. -/
theorem writeOfRoAddressIsIgnored : Obligations.WriteOfRoAddressIsIgnored := by
  intro s w r hv hw hr hro
  have h := exec_write s w r hv hw hr
  rw [RegFile.write_ro _ _ _ hro] at h
  exact actsAsNopIn_of_exec h

end Sys2Proof.Machine

/-! PROOF. The clock-divider chain (41_clock_dividers.md R141). The ClockDivider's two branches are said
once each; that no bus operation reaches them is that phase W writes the register file alone. -/

namespace Sys2Proof.Machine

/-- The ClockDivider with its counter at 0: the clock bit toggles, the strobe is raised and the counter is
reloaded (R141). -/
theorem ClockDivider.next_reload (period : Nat) (cd : ClockDivider) (h : cd.counter = 0) :
    cd.next period = { counter := period - 1, strobe := true, clk := !cd.clk } := by
  simp [ClockDivider.next, ClockDivider.strobeNext, h]

/-- The ClockDivider with any other counter: the strobe is lowered and the counter counts down (R141). -/
theorem ClockDivider.next_countdown (period : Nat) (cd : ClockDivider) (h : cd.counter ≠ 0) :
    cd.next period = { counter := cd.counter - 1, strobe := false, clk := cd.clk } := by
  simp [ClockDivider.next, ClockDivider.strobeNext, h]

/-- In every cycle, whatever the bus does, the ClockDivider goes to its own next state. -/
theorem exec_cd (i : Instr) (s : State) (h : i.wellFormed s.cfg = true) :
    ∃ t, exec i s = .next t ∧ t.cd = s.cd.next s.cfg.clkdivMaxPeriod :=
  ⟨_, exec_eq i s h, by rw [State.cycle_cd, State.afterBus_cd, State.afterBus_cfg]⟩

/-- Settles O26: the cycle's ClockDivider is its own next state, by the two cases of its counter. -/
theorem clockDividerStep : Obligations.ClockDividerStep := by
  intro i s hwf
  obtain ⟨t, hexec, hcd⟩ := exec_cd i s hwf
  exact ⟨t, hexec, fun h => hcd.trans (s.cd.next_reload _ h), fun h => hcd.trans (s.cd.next_countdown _ h)⟩

end Sys2Proof.Machine

/-! PROOF. Channels are independent (42_trigger_fsm.md R160). Agreement of two states on one channel is
kept by phase W under every operation, and a cycle computes the channel's next state and Mode from what
the agreement holds. -/

namespace Sys2Proof.Machine

/-- Two states of one configuration agree on everything that channel `k` reads: the wall tick, its own
state, its enable bit and its four registers (R160, R161). -/
structure State.AgreesOn (k : Fin 8) (s s' : State) : Prop where
  cfg : s.cfg = s'.cfg
  strobe : s.dv.strobe = s'.dv.strobe
  ch : s.ch[k] = s'.ch[k]
  en : s.regs.triggerEnables.getLsbD k.val = s'.regs.triggerEnables.getLsbD k.val
  mode : s.regs.mode[k] = s'.regs.mode[k]
  interval : s.regs.interval[k] = s'.regs.interval[k]
  duration : s.regs.duration[k] = s'.regs.duration[k]
  phase : s.regs.phase[k] = s'.regs.phase[k]

/-- One slot written alike in two banks that agree at `k` leaves them in agreement there, whether the slot
is `k` or another. -/
theorem bank_set_agrees {b b' : Vector Byte 8} {k : Fin 8} (h : b[k] = b'[k]) (j : Fin 8) (v : Byte) :
    (b.set j v)[k] = (b'.set j v)[k] := by
  simp only [Fin.getElem_fin] at h ⊢
  simp only [Vector.getElem_set, h]

/-- Phase W keeps the agreement: an operation writes registers of channel `k` alike in both states, or none
of them. -/
theorem State.AgreesOn.afterBus {k : Fin 8} {s s' : State} (h : s.AgreesOn k s') (i : Instr) :
    (s.afterBus i).AgreesOn k (s'.afterBus i) := by
  cases i with
  | wrTriggerEnables v => exact { h with en := rfl }
  | wrTrigMode j v => exact { h with mode := bank_set_agrees h.mode j v }
  | wrTrigInterval j v => exact { h with interval := bank_set_agrees h.interval j v }
  | wrTrigDuration j v => exact { h with duration := bank_set_agrees h.duration j v }
  | wrTrigPhase j v => exact { h with phase := bank_set_agrees h.phase j v }
  | wrUnmapped a v =>
    simp only [State.afterBus, ← h.cfg]
    split
    · exact { h with cfg := rfl }
    · exact h
  | _ => exact { h with }

/-- The operands of the channel's FSM are the same (R161). -/
theorem State.AgreesOn.triggerInputs {k : Fin 8} {s s' : State} (h : s.AgreesOn k s') :
    s.triggerInputs k = s'.triggerInputs k := by
  simp only [State.triggerInputs, h.cfg, h.strobe, h.en, h.mode, h.interval, h.duration, h.phase]

/-- A cycle gives the channel the same next state. -/
theorem State.AgreesOn.cycle_ch {k : Fin 8} {s s' : State} (h : s.AgreesOn k s') (r r' : Option Byte) :
    (s.cycle r).ch[k] = (s'.cycle r').ch[k] := by
  have hch : s.ch[k.val] = s'.ch[k.val] := h.ch
  simp only [Fin.getElem_fin, State.cycle_ch, h.cfg, hch, h.triggerInputs]

/-- A cycle gives the channel the same next Mode byte, by its TriggerController (R191). -/
theorem State.AgreesOn.cycle_mode {k : Fin 8} {s s' : State} (h : s.AgreesOn k s') (r r' : Option Byte) :
    (s.cycle r).regs.mode[k] = (s'.cycle r').regs.mode[k] := by
  have hch : s.ch[k.val] = s'.ch[k.val] := h.ch
  have hmode : s.regs.mode[k.val] = s'.regs.mode[k.val] := h.mode
  simp only [Fin.getElem_fin, State.cycle_mode, h.cfg, h.strobe, hch, hmode]

/-- Settles O44: the two states agree on the channel, phase W keeps that, and the cycle's next values are
those of the agreement. -/
theorem channelsAreIndependent : Obligations.ChannelsAreIndependent := by
  intro i s s' k hwf _ hcfg hstrobe hch hen hmode hinterval hduration hphase
  have hagree : s.AgreesOn k s' := ⟨hcfg, hstrobe, hch, hen, hmode, hinterval, hduration, hphase⟩
  have hpost := hagree.afterBus i
  exact ⟨_, _, exec_eq i s hwf, exec_eq i s' (hcfg ▸ hwf), hpost.cycle_ch _ _, hpost.cycle_mode _ _⟩

end Sys2Proof.Machine

/-! PROOF. The crossbar outputs of a cycle (44_crossbar.md R202). Every cell's output is the output function
of its post-write control byte and its current latched bit, because phase W does not write a latch. -/

namespace Sys2Proof.Machine

/-- The output function in the bits of the control byte: bit 7 enables the output, bit 5 inverts it and
bit 6 is its default (R84, R202). -/
theorem xbarOut_eq_bits (c : Byte) (lat : Bool) :
    xbarOut c lat = if c.getLsbD 7 then (if c.getLsbD 5 then !lat else lat) else c.getLsbD 6 := rfl

/-- Phase W reaches the output of a cell of A through the control byte alone. -/
theorem State.xa_afterBus (s : State) (i : Instr) (j : Fin 8) :
    (s.afterBus i).xa j = xbarOut (s.afterBus i).regs.xbarA[j] s.latA[j] := by
  rw [State.xa, State.afterBus_latA]

/-- Phase W reaches the output of a cell of B through the control byte alone. -/
theorem State.xb_afterBus (s : State) (i : Instr) (j : Fin 8) :
    (s.afterBus i).xb j = xbarOut (s.afterBus i).regs.xbarB[j] s.latB[j] := by
  rw [State.xb, State.afterBus_latB]

/-- In every cycle the recorded output of each cell is the output function of its post-write control byte
and its current latched bit. -/
theorem exec_xbarOutputs (i : Instr) (s : State) (j : Fin 8) (h : i.wellFormed s.cfg = true) :
    ∃ t, exec i s = .next t
      ∧ t.obs.xa[j] = xbarOut (s.afterBus i).regs.xbarA[j] s.latA[j]
      ∧ t.obs.xb[j] = xbarOut (s.afterBus i).regs.xbarB[j] s.latB[j] :=
  ⟨_, exec_eq i s h, (State.cycle_xa _ _ j).trans (s.xa_afterBus i j),
    (State.cycle_xb _ _ j).trans (s.xb_afterBus i j)⟩

/-- Settles O50: the outputs of the cycle are those of the output function, said in the bits of the control
byte. -/
theorem crossbarOutputFunction : Obligations.CrossbarOutputFunction := by
  intro i s j hwf
  obtain ⟨t, hexec, hxa, hxb⟩ := exec_xbarOutputs i s j hwf
  exact ⟨t, hexec, hxa.trans (xbarOut_eq_bits _ _), hxb.trans (xbarOut_eq_bits _ _)⟩

end Sys2Proof.Machine

/-! PROOF. Decode and encode undo each other (30_encoding.md sections 1, 6 and 7). An operation that is
neither NOP nor a fallback is its register's RD or WR at the register's address, and the address decode
finds that register again. -/

namespace Sys2Proof

/-- The register whose row of the opcode table an operation belongs to; NOP and the fallback rows have
none (R92). -/
def Instr.row : Instr → Option Reg
  | .rdProductId j | .wrProductId j _ => some (.productId j)
  | .rdHwRevision | .wrHwRevision _ => some .hwRevision
  | .rdGwRevision | .wrGwRevision _ => some .gwRevision
  | .rdCameraCount | .wrCameraCount _ => some .cameraCount
  | .rdGpioCount | .wrGpioCount _ => some .gpioCount
  | .rdTriggerCount | .wrTriggerCount _ => some .triggerCount
  | .rdClockDivider | .wrClockDivider _ => some .clockDivider
  | .rdPowerControl | .wrPowerControl _ => some .powerControl
  | .rdXbarA i | .wrXbarA i _ => some (.xbarA i)
  | .rdXbarB i | .wrXbarB i _ => some (.xbarB i)
  | .rdTriggerEnables | .wrTriggerEnables _ => some .triggerEnables
  | .rdTrigMode k | .wrTrigMode k _ => some (.mode k)
  | .rdTrigInterval k | .wrTrigInterval k _ => some (.interval k)
  | .rdTrigDuration k | .wrTrigDuration k _ => some (.duration k)
  | .rdTrigPhase k | .wrTrigPhase k _ => some (.phase k)
  | .nop | .rdUnmapped _ | .wrUnmapped _ _ => none

/-! ### An operation and its register -/

/-- An operation with a row is the RD or the WR of its register. -/
theorem Instr.eq_of_row {i : Instr} {r : Reg} (h : i.row = some r) (a : Byte) :
    i = (match i.writeData with
      | none => r.readInstr a
      | some v => r.writeInstr a v) := by
  cases i <;> cases h <;> rfl

/-- The configuration has the register of a well-formed operation's row. -/
theorem Instr.row_present {i : Instr} {r : Reg} {cfg : Config} (h : i.row = some r)
    (hwf : i.wellFormed cfg = true) : r.present cfg = true := by
  cases i <;> cases h <;> exact hwf

theorem Instr.row_ne_resetMask {i : Instr} {r : Reg} (h : i.row = some r) : r ≠ .resetMask := by
  cases i <;> cases h <;> exact Reg.noConfusion

/-! ### The address fields of R82 are the addresses of R23 -/

theorem xbarA_addr : ∀ i : Fin 8, 0b00100#5 ++ BitVec.ofNat 3 i.val = BitVec.ofNat 8 (0x20 + i.val) := by
  decide

theorem xbarB_addr : ∀ i : Fin 8, 0b00101#5 ++ BitVec.ofNat 3 i.val = BitVec.ofNat 8 (0x28 + i.val) := by
  decide

theorem productId_addr : ∀ j : Fin 6, 0b00000#5 ++ BitVec.ofNat 3 j.val = BitVec.ofNat 8 (0x00 + j.val) := by
  decide

theorem mode_addr : ∀ k : Fin 8,
    0b01#2 ++ BitVec.ofNat 3 k.val ++ 0b000#3 = BitVec.ofNat 8 (0x40 + 8 * k.val) := by decide

theorem interval_addr : ∀ k : Fin 8,
    0b01#2 ++ BitVec.ofNat 3 k.val ++ 0b001#3 = BitVec.ofNat 8 (0x41 + 8 * k.val) := by decide

theorem duration_addr : ∀ k : Fin 8,
    0b01#2 ++ BitVec.ofNat 3 k.val ++ 0b010#3 = BitVec.ofNat 8 (0x42 + 8 * k.val) := by decide

theorem phase_addr : ∀ k : Fin 8,
    0b01#2 ++ BitVec.ofNat 3 k.val ++ 0b011#3 = BitVec.ofNat 8 (0x43 + 8 * k.val) := by decide

/-- The address field of an operation with a row is its register's address (R23, R82). -/
theorem Instr.row_addr (cfg : Config) {i : Instr} {r : Reg} (h : i.row = some r) :
    r.addr cfg = some i.addr := by
  cases i with
  | rdProductId j | wrProductId j => cases h; exact congrArg some (productId_addr j).symm
  | rdXbarA j | wrXbarA j => cases h; exact congrArg some (xbarA_addr j).symm
  | rdXbarB j | wrXbarB j => cases h; exact congrArg some (xbarB_addr j).symm
  | rdTrigMode k | wrTrigMode k => cases h; exact congrArg some (mode_addr k).symm
  | rdTrigInterval k | wrTrigInterval k => cases h; exact congrArg some (interval_addr k).symm
  | rdTrigDuration k | wrTrigDuration k => cases h; exact congrArg some (duration_addr k).symm
  | rdTrigPhase k | wrTrigPhase k => cases h; exact congrArg some (phase_addr k).symm
  | _ => cases h <;> rfl

/-- The address decode finds the register of a well-formed operation's row at the operation's address. -/
theorem Instr.fixedRegAt_row {cfg : Config} {i : Instr} {r : Reg} (h : i.row = some r)
    (hwf : i.wellFormed cfg = true) : cfg.fixedRegAt i.addr = some r :=
  cfg.fixedRegAt_addr r i.addr (Instr.row_present h hwf) (Instr.row_ne_resetMask h) (Instr.row_addr cfg h)

/-! ### The canonical word of an operation (R90) -/

/-- Every operation but NOP has a word with `valid = 1`, its address, and its byte when it writes one. -/
theorem encode_eq (i : Instr) (h : i ≠ .nop) :
    encode i = busWord true i.writeData.isSome i.addr (i.writeData.getD 0) := by
  cases i <;> first | rfl | exact absurd rfl h

theorem Instr.ne_nop_of_row {i : Instr} {r : Reg} (h : i.row = some r) : i ≠ .nop := by
  rintro rfl; cases h

/-- The canonical word of an operation with a row decodes to it: its address is its register's. -/
theorem decode_encode_of_row {cfg : Config} {i : Instr} {r : Reg} (h : i.row = some r)
    (hwf : i.wellFormed cfg = true) : decode cfg (encode i) = i := by
  have heq := Instr.eq_of_row h i.addr
  rw [encode_eq i (Instr.ne_nop_of_row h),
    decode_mapped cfg _ r (busWord_valid ..) (by rw [busWord_addr]; exact Instr.fixedRegAt_row h hwf)]
  cases hw : i.writeData with
  | none => simpa [hw] using heq.symm
  | some v => simpa [hw] using heq.symm

theorem decode_encode_unmapped {cfg : Config} {a : Byte} {i : Instr} (ha : i.addr = a) (hi : i ≠ .nop)
    (h : cfg.fixedRegAt a = none) :
    decode cfg (encode i) =
      if i.writeData.isSome then .wrUnmapped a (i.writeData.getD 0) else .rdUnmapped a := by
  subst ha
  rw [encode_eq i hi, decode_unmapped cfg _ (busWord_valid ..) (by rwa [busWord_addr])]
  simp

/-- Decode undoes encode on every well-formed operation (R90, R92). -/
theorem decode_encode (cfg : Config) (i : Instr) (hwf : i.wellFormed cfg = true) :
    decode cfg (encode i) = i := by
  cases hrow : i.row with
  | some r => exact decode_encode_of_row hrow hwf
  | none =>
    cases i with
    | nop => exact decode_invalid cfg _ rfl
    | rdUnmapped a =>
      exact decode_encode_unmapped rfl Instr.noConfusion (Option.isNone_iff_eq_none.mp hwf)
    | wrUnmapped a v =>
      exact decode_encode_unmapped rfl Instr.noConfusion (Option.isNone_iff_eq_none.mp hwf)
    | _ => cases hrow

/-- Settles O1: by the operation's row, where it has one, and by the fallback's condition. -/
theorem decodeOfEncodeIsTheOperation : Obligations.DecodeOfEncodeIsTheOperation := decode_encode

/-! ### The canonical word of what a word decodes to -/

theorem Reg.row_readInstr (r : Reg) (a : Byte) (hr : r ≠ .resetMask) : (r.readInstr a).row = some r := by
  cases r <;> first | rfl | exact absurd rfl hr

theorem Reg.row_writeInstr (r : Reg) (a v : Byte) (hr : r ≠ .resetMask) :
    (r.writeInstr a v).row = some r := by
  cases r <;> first | rfl | exact absurd rfl hr

theorem Reg.writeData_readInstr (r : Reg) (a : Byte) : (r.readInstr a).writeData = none := by
  cases r <;> rfl

theorem Reg.writeData_writeInstr (r : Reg) (a v : Byte) : (r.writeInstr a v).writeData = some v := by
  cases r <;> rfl

/-- The canonical word of a register's RD, at the register's address. -/
theorem encode_readInstr (cfg : Config) (r : Reg) (a : Byte) (hr : r ≠ .resetMask)
    (ha : r.addr cfg = some a) : encode (r.readInstr a) = rdWord a := by
  have hrow := r.row_readInstr a hr
  have haddr : (r.readInstr a).addr = a := Option.some.inj ((Instr.row_addr cfg hrow).symm.trans ha)
  rw [encode_eq _ (Instr.ne_nop_of_row hrow), haddr, r.writeData_readInstr]
  rfl

/-- The word of a register's WR, at the register's address. -/
theorem encode_writeInstr (cfg : Config) (r : Reg) (a v : Byte) (hr : r ≠ .resetMask)
    (ha : r.addr cfg = some a) : encode (r.writeInstr a v) = wrWord a v := by
  have hrow := r.row_writeInstr a v hr
  have haddr : (r.writeInstr a v).addr = a := Option.some.inj ((Instr.row_addr cfg hrow).symm.trans ha)
  rw [encode_eq _ (Instr.ne_nop_of_row hrow), haddr, r.writeData_writeInstr]
  rfl

/-- A word with `valid = 1` decodes to an operation whose canonical word is `RD` or `WR` of its address. -/
theorem encode_decode_valid (cfg : Config) (w : BusWord) (hv : w.valid = true) :
    encode (decode cfg w) = if w.rw then wrWord w.addr w.data else rdWord w.addr := by
  cases hf : cfg.fixedRegAt w.addr with
  | some r =>
    obtain ⟨ha, -, hr⟩ := cfg.fixedRegAt_some _ r hf
    rw [decode_mapped cfg w r hv hf, apply_ite encode, encode_readInstr cfg r _ hr ha,
      encode_writeInstr cfg r _ _ hr ha]
  | none =>
    rw [decode_unmapped cfg w hv hf, apply_ite encode]
    rfl

/-- A write carries all its fields: it is its own canonical word (R90). -/
theorem BusWord.eq_wrWord (w : BusWord) (hv : w.valid = true) (hw : w.rw = true) :
    wrWord w.addr w.data = w := by
  conv_rhs => rw [w.eq_busWord, hv, hw]
  rfl

/-- Settles O2: a NOP is all zero, and a valid word's operation is encoded with the word's own address. -/
theorem encodeOfDecodeIsTheCanonicalWord : Obligations.EncodeOfDecodeIsTheCanonicalWord := by
  intro cfg w
  cases hv : w.valid with
  | false =>
    rw [decode_invalid cfg w hv]
    simp [BusWord.canonical, hv, encode]
  | true =>
    rw [encode_decode_valid cfg w hv]
    cases hw : w.rw with
    | false => simp [BusWord.canonical, hv, hw]
    | true => simp [BusWord.canonical, hv, hw, w.eq_wrWord hv hw]

/-! ### The worked encodings (30_encoding.md section 6) -/

/-- A worked word that is an operation's canonical word decodes to it. -/
theorem decode_of_encode_eq {cfg : Config} {w : BusWord} {i : Instr} (h : encode i = w)
    (hwf : i.wellFormed cfg = true) : decode cfg w = i :=
  h ▸ decode_encode cfg i hwf

/-- Settles O4: each word is the canonical word of the operation that the spec gives for it. -/
theorem workedEncodingsDecode : Obligations.WorkedEncodingsDecode := fun cfg hn =>
  have hk : decide ((0 : Fin 8).val < cfg.nTrig) = true := decide_eq_true hn
  ⟨decode_of_encode_eq rfl rfl, decode_of_encode_eq rfl hk, decode_of_encode_eq rfl rfl,
    decode_of_encode_eq rfl rfl, decode_of_encode_eq rfl hk, decode_of_encode_eq rfl rfl, rfl⟩

end Sys2Proof

/-! PROOF. The merge of the Trigger FSM's steps (42_trigger_fsm.md R163) is a sequential commit, so what
every step's assignment keeps, the whole update keeps; from there the invariants of 10_state.md section 4. -/

namespace Sys2Proof.Machine

/-! ### The merge, one assignment at a time -/

theorem pick_later_cons {α : Type} (a : Option α) (ws : List (Option α)) :
    pick .laterWins (a :: ws) = (pick .laterWins ws).or a := by
  cases a with
  | none => simp
  | some v => cases h : pick .laterWins ws <;> simp [h]

theorem pick_earlier_cons {α : Type} (a : Option α) (ws : List (Option α)) :
    pick .earlierWins (a :: ws) = a.or (pick .earlierWins ws) := by
  cases a <;> simp

theorem merge_nil (p : ConflictPolicy) : merge p [] = {} := by simp [merge]

theorem commit_empty (c : Channel) : c.commit {} = c := rfl

/-- Where later writes win, the first assignment is committed first. -/
theorem commit_merge_later_cons (c : Channel) (a : Assign) (ws : List Assign) :
    c.commit (merge .laterWins (a :: ws)) = (c.commit a).commit (merge .laterWins ws) := by
  simp only [merge, List.map_cons, pick_later_cons, Channel.commit, Option.getD_or]

/-- Where earlier writes win, the first assignment is committed last. -/
theorem commit_merge_earlier_cons (c : Channel) (a : Assign) (ws : List Assign) :
    c.commit (merge .earlierWins (a :: ws)) = (c.commit (merge .earlierWins ws)).commit a := by
  simp only [merge, List.map_cons, pick_earlier_cons, Channel.commit, Option.getD_or]

theorem commit_merge_later (c : Channel) (ws : List Assign) :
    c.commit (merge .laterWins ws) = ws.foldl Channel.commit c := by
  induction ws generalizing c with
  | nil => rw [merge_nil, commit_empty]; rfl
  | cons a ws ih => rw [commit_merge_later_cons, ih]; rfl

theorem commit_merge_earlier (c : Channel) (ws : List Assign) :
    c.commit (merge .earlierWins ws) = ws.reverse.foldl Channel.commit c := by
  induction ws with
  | nil => rw [merge_nil, commit_empty]; rfl
  | cons a ws ih => rw [commit_merge_earlier_cons, ih, List.reverse_cons, List.foldl_append]; rfl

/-- Settles O43, by induction on the list of assignments for each policy. -/
theorem mergeIsAnOrderedCommit : Obligations.MergeIsAnOrderedCommit := fun c ws =>
  ⟨commit_merge_later c ws, commit_merge_earlier c ws⟩

/-- A property of a channel that each assignment's commit keeps is kept by the commit of their merge,
under either policy. -/
theorem commit_merge_induction {P : Channel → Prop} (p : ConflictPolicy) (ws : List Assign) {c : Channel}
    (hc : P c) (hstep : ∀ a ∈ ws, ∀ c, P c → P (c.commit a)) : P (c.commit (merge p ws)) := by
  have hfold (l : List Assign) (hl : ∀ a ∈ l, a ∈ ws) : P (l.foldl Channel.commit c) :=
    List.foldlRecOn l _ hc fun c' hc' a ha => hstep a (hl a ha) c' hc'
  cases p with
  | laterWins => rw [commit_merge_later]; exact hfold ws fun _ h => h
  | earlierWins => rw [commit_merge_earlier]; exact hfold _ fun _ h => List.mem_reverse.mp h

/-! ### The branches of each step

One equation for each branch of steps 2, 3 and 5 (R165 to R172). -/

section Steps
variable (x : TriggerInputs) (c : Channel)

theorem step2_stop (h : x.mode = .stop) : step2 x c = { out := some false, es := some .off } := by
  simp [step2, h]

theorem step2_idle (h : x.mode = .idle ∨ x.mode = .unmapped) : step2 x c = {} := by
  rcases h with h | h <;> simp [step2, h]

theorem intervalActs_iff : x.intervalActs = true ↔ x.d ≠ 0 ∧ x.n ≠ 0 := by
  simp [TriggerInputs.intervalActs]

theorem step2_arms (h : x.Arms c) :
    step2 x c = { dc := some (x.d - 1), es := some .init, ic := some (x.n - 1) } := by
  obtain ⟨hm, hd, hn, hic⟩ := h
  simp only [step2, hm, step2Interval, if_pos ((intervalActs_iff x).mpr ⟨hd, hn⟩), if_pos hic]

theorem step2_interval_counts (hm : x.mode = .interval) (hd : x.d ≠ 0) (hn : x.n ≠ 0) (hic : c.ic ≠ 0) :
    step2 x c = { ic := some (c.ic - 1) } := by
  simp only [step2, hm, step2Interval, if_pos ((intervalActs_iff x).mpr ⟨hd, hn⟩), if_neg hic]

theorem step2_interval_rests (hm : x.mode = .interval) (h : x.d = 0 ∨ x.n = 0) : step2 x c = {} := by
  rcases h with h | h <;> simp [step2, hm, step2Interval, TriggerInputs.intervalActs, h]

theorem step2_oneShot_arms (hm : x.mode = .oneShot) (hd : x.d ≠ 0) (he : c.es = .off) :
    step2 x c = { dc := some (x.d - 1), es := some .init } := by
  simp only [step2, hm, step2OneShot, if_pos (And.intro hd he)]

theorem step2_oneShot_rests (hm : x.mode = .oneShot) (h : x.d = 0 ∨ c.es ≠ .off) : step2 x c = {} := by
  rcases h with h | h <;> simp [step2, hm, step2OneShot, h]

theorem step2_constant_arms (hm : x.mode = .constant) (he : c.es = .off) :
    step2 x c = { es := some .init } := by
  simp [step2, hm, step2Constant, he]

theorem step2_constant_rests (hm : x.mode = .constant) (he : c.es ≠ .off) : step2 x c = {} := by
  simp [step2, hm, step2Constant, he]

theorem step3_constant (hm : x.mode = .constant) : step3 x c = {} := by simp [step3, hm]

theorem step3_low (ho : c.out = false) : step3 x c = {} := by simp [step3, Channel.expired, ho]

theorem step3_ends (hm : x.mode ≠ .constant) (h : c.PulseEnds) :
    step3 x c = { out := some false, es := some .off } := by
  obtain ⟨ho, hd⟩ := h
  simp [step3, hm, Channel.expired, ho, hd]

theorem step3_counts (hm : x.mode ≠ .constant) (ho : c.out = true) (hd : c.dc ≠ 0) :
    step3 x c = { dc := some (c.dc - 1) } := by
  have hne : c.expired = false := by simpa [Channel.expired, ho] using hd
  simp [step3, hm, hne, ho]

theorem step5_rests (he : c.es ≠ .wait) : step5 c = {} := by simp [step5, he]

theorem step5_ends (h : c.PhaseEnds) : step5 c = { out := some true, es := some .active } := by
  obtain ⟨he, hp⟩ := h
  simp [step5, he, hp]

theorem step5_counts (he : c.es = .wait) (hp : c.pc ≠ 0) : step5 c = { pc := some (c.pc - 1) } := by
  simp only [step5, if_pos he, if_neg hp]

/-- Everything step 2 can assign. -/
theorem step2_cases : step2 x c = {}
    ∨ (x.mode = .stop ∧ step2 x c = { out := some false, es := some .off })
    ∨ (x.Arms c ∧ step2 x c = { dc := some (x.d - 1), es := some .init, ic := some (x.n - 1) })
    ∨ (c.ic ≠ 0 ∧ step2 x c = { ic := some (c.ic - 1) })
    ∨ (x.d ≠ 0 ∧ c.es = .off ∧ step2 x c = { dc := some (x.d - 1), es := some .init })
    ∨ (c.es = .off ∧ step2 x c = { es := some .init }) := by
  cases hm : x.mode with
  | stop => exact .inr (.inl ⟨rfl, step2_stop x c hm⟩)
  | idle => exact .inl (step2_idle x c (.inl hm))
  | unmapped => exact .inl (step2_idle x c (.inr hm))
  | interval =>
    by_cases h : x.d = 0 ∨ x.n = 0
    · exact .inl (step2_interval_rests x c hm h)
    · obtain ⟨hd, hn⟩ := not_or.mp h
      by_cases hic : c.ic = 0
      · exact .inr (.inr (.inl ⟨⟨hm, hd, hn, hic⟩, step2_arms x c ⟨hm, hd, hn, hic⟩⟩))
      · exact .inr (.inr (.inr (.inl ⟨hic, step2_interval_counts x c hm hd hn hic⟩)))
  | oneShot =>
    by_cases h : x.d = 0 ∨ c.es ≠ .off
    · exact .inl (step2_oneShot_rests x c hm h)
    · obtain ⟨hd, he⟩ := not_or.mp h
      have he := not_not.mp he
      exact .inr (.inr (.inr (.inr (.inl ⟨hd, he, step2_oneShot_arms x c hm hd he⟩))))
  | constant =>
    by_cases he : c.es = .off
    · exact .inr (.inr (.inr (.inr (.inr ⟨he, step2_constant_arms x c hm he⟩))))
    · exact .inl (step2_constant_rests x c hm he)

/-- Everything step 3 can assign. -/
theorem step3_cases : step3 x c = {}
    ∨ (c.PulseEnds ∧ step3 x c = { out := some false, es := some .off })
    ∨ (c.out = true ∧ c.dc ≠ 0 ∧ step3 x c = { dc := some (c.dc - 1) }) := by
  by_cases hm : x.mode = .constant
  · exact .inl (step3_constant x c hm)
  · cases ho : c.out with
    | false => exact .inl (step3_low x c ho)
    | true =>
      by_cases hd : c.dc = 0
      · exact .inr (.inl ⟨⟨ho, hd⟩, step3_ends x c hm ⟨ho, hd⟩⟩)
      · exact .inr (.inr ⟨rfl, hd, step3_counts x c hm ho hd⟩)

/-- Everything step 5 can assign. -/
theorem step5_cases : step5 c = {}
    ∨ (c.PhaseEnds ∧ step5 c = { out := some true, es := some .active })
    ∨ (c.es = .wait ∧ c.pc ≠ 0 ∧ step5 c = { pc := some (c.pc - 1) }) := by
  by_cases he : c.es = .wait
  · by_cases hp : c.pc = 0
    · exact .inr (.inl ⟨⟨he, hp⟩, step5_ends c ⟨he, hp⟩⟩)
    · exact .inr (.inr ⟨he, hp, step5_counts c he hp⟩)
  · exact .inl (step5_rests c he)

end Steps

/-! ### The whole update of a channel -/

/-- A property of a channel that the commit of each step's assignment keeps is kept by the whole update,
at every edge and under either policy (R163, R173); the disable step is the whole update by itself. -/
theorem Channel.next_induction {P : Channel → Prop} {p : ConflictPolicy} {x : TriggerInputs} {c : Channel}
    (hc : P c) (h1 : P (c.commit step1))
    (h2 : ∀ c', P c' → P (c'.commit (step2 x c))) (h3 : ∀ c', P c' → P (c'.commit (step3 x c)))
    (h4 : ∀ c', P c' → P (c'.commit (step4 x c))) (h5 : ∀ c', P c' → P (c'.commit (step5 c))) :
    P (c.next p x) := by
  have hgate (a : Assign) (ha : ∀ c', P c' → P (c'.commit a)) (c') (hc' : P c') :
      P (c'.commit (gate x.gated a)) := by
    cases x.gated
    · exact hc'
    · exact ha c' hc'
  unfold Channel.next Channel.assignment
  cases x.disables
  · refine commit_merge_induction p _ hc fun a ha => ?_
    simp only [List.mem_cons, List.not_mem_nil, or_false] at ha
    rcases ha with rfl | rfl | rfl | rfl
    · exact hgate _ h2
    · exact hgate _ h3
    · exact h4
    · exact hgate _ h5
  · exact h1

/-- Everything step 4 can assign. -/
theorem step4_cases (x : TriggerInputs) (c : Channel) : step4 x c = {}
    ∨ step4 x c = { out := some true, es := some .active }
    ∨ (x.p ≠ 0 ∧ step4 x c = { pc := some (x.p - 1), es := some .wait }) := by
  by_cases he : c.es = .init
  · by_cases hp : x.p = 0
    · exact .inr (.inl (by simp only [step4, if_pos he, if_pos hp]))
    · exact .inr (.inr ⟨hp, by simp only [step4, if_pos he, if_neg hp]⟩)
  · exact .inl (by simp only [step4, if_neg he])

/-! ### The counters (10_state.md section 4, R180) -/

/-- Counting a non-zero byte down does not wrap. -/
theorem toNat_pred {b : Byte} (h : b ≠ 0) : (b - 1).toNat + 1 = b.toNat := by
  have : b.toNat ≠ 0 := fun h0 => h (BitVec.eq_of_toNat_eq h0)
  bv_omega

/-- The values that one edge can leave in the counters of a channel in state `c` with operands `x`: each
counter as it was, cleared, or one less than a non-zero byte. -/
structure Channel.CountersFrom (x : TriggerInputs) (c c' : Channel) : Prop where
  ic : c'.ic = c.ic ∨ c'.ic = 0 ∨ c'.ic.toNat + 1 = x.n.toNat ∨ c'.ic.toNat + 1 = c.ic.toNat
  dc : c'.dc = c.dc ∨ c'.dc.toNat + 1 = x.d.toNat ∨ c'.dc.toNat + 1 = c.dc.toNat
  pc : c'.pc = c.pc ∨ c'.pc = 0 ∨ c'.pc.toNat + 1 = x.p.toNat ∨ c'.pc.toNat + 1 = c.pc.toNat

theorem Channel.next_countersFrom (p : ConflictPolicy) (x : TriggerInputs) (c : Channel) :
    c.CountersFrom x (c.next p x) := by
  refine Channel.next_induction ⟨.inl rfl, .inl rfl, .inl rfl⟩
    ⟨.inr (.inl rfl), .inl rfl, .inr (.inl rfl)⟩ ?_ ?_ ?_ ?_ <;> intro c' h
  · rcases step2_cases x c with e | ⟨-, e⟩ | ⟨⟨-, hd, hn, -⟩, e⟩ | ⟨hic, e⟩ | ⟨hd, -, e⟩ | ⟨-, e⟩ <;> rw [e]
    · exact h
    · exact { h with }
    · exact { h with ic := .inr (.inr (.inl (toNat_pred hn))), dc := .inr (.inl (toNat_pred hd)) }
    · exact { h with ic := .inr (.inr (.inr (toNat_pred hic))) }
    · exact { h with dc := .inr (.inl (toNat_pred hd)) }
    · exact { h with }
  · rcases step3_cases x c with e | ⟨-, e⟩ | ⟨-, hd, e⟩ <;> rw [e]
    · exact h
    · exact { h with }
    · exact { h with dc := .inr (.inr (toNat_pred hd)) }
  · rcases step4_cases x c with e | e | ⟨hp, e⟩ <;> rw [e]
    · exact h
    · exact { h with }
    · exact { h with pc := .inr (.inr (.inl (toNat_pred hp))) }
  · rcases step5_cases c with e | ⟨-, e⟩ | ⟨-, hp, e⟩ <;> rw [e]
    · exact h
    · exact { h with }
    · exact { h with pc := .inr (.inr (.inr (toNat_pred hp))) }

/-! ### Off implies low (R35 (c)) -/

/-- An assignment that writes the output writes `exec_state` too, and Off with a low output. Every step's
assignment is of this kind. -/
structure Assign.OffLow (a : Assign) : Prop where
  outWithEs : a.es = none → a.out = none
  offWithLow : a.es = some .off → a.out = some false

theorem Assign.OffLow.commit {a : Assign} (ha : a.OffLow) {c : Channel} (hc : c.es = .off → c.out = false) :
    (c.commit a).es = .off → (c.commit a).out = false := by
  cases he : a.es with
  | none => simpa [Channel.commit, he, ha.outWithEs he] using hc
  | some e =>
    rintro hoff
    have hoff : e = .off := by simpa [Channel.commit, he] using hoff
    simp [Channel.commit, ha.offWithLow (he.trans (congrArg some hoff))]

theorem Channel.next_offLow (p : ConflictPolicy) (x : TriggerInputs) (c : Channel)
    (hc : c.es = .off → c.out = false) : (c.next p x).es = .off → (c.next p x).out = false := by
  refine Channel.next_induction (P := fun c => c.es = .off → c.out = false) hc (fun _ => rfl)
    (fun c' => Assign.OffLow.commit ?_) (fun c' => Assign.OffLow.commit ?_)
    (fun c' => Assign.OffLow.commit ?_) (fun c' => Assign.OffLow.commit ?_)
  · rcases step2_cases x c with e | ⟨-, e⟩ | ⟨-, e⟩ | ⟨-, e⟩ | ⟨-, -, e⟩ | ⟨-, e⟩ <;> rw [e] <;>
      constructor <;> simp
  · rcases step3_cases x c with e | ⟨-, e⟩ | ⟨-, -, e⟩ <;> rw [e] <;> constructor <;> simp
  · rcases step4_cases x c with e | e | ⟨-, e⟩ <;> rw [e] <;> constructor <;> simp
  · rcases step5_cases c with e | ⟨-, e⟩ | ⟨-, -, e⟩ <;> rw [e] <;> constructor <;> simp

/-! ### Init only after a wall tick (R35 (d)) -/

/-- In an off-cycle no channel is armed, and one that was leaves Init. -/
theorem Channel.next_es_offCycle (p : ConflictPolicy) (x : TriggerInputs) (c : Channel)
    (ht : x.tick = false) : (c.next p x).es ≠ .init := by
  by_cases hi : c.es = .init
  · rw [Channel.next_init p x c ht hi]; split_ifs <;> exact ExecState.noConfusion
  · rwa [Channel.next_offCycle p x c ht hi]

/-- A counter that was at most 254 still is (R180). -/
theorem counter_le {c c' n : Byte} (hc : c.toNat ≤ 254)
    (h : c' = c ∨ c' = 0 ∨ c'.toNat + 1 = n.toNat ∨ c'.toNat + 1 = c.toNat) : c'.toNat ≤ 254 := by
  rcases h with rfl | rfl | h | h
  · exact hc
  · decide
  · omega
  · omega

/-- The channel's invariant after an edge, if the next cycle of a wall tick has none. -/
theorem Channel.Inv.next {c : Channel} {x : TriggerInputs} (h : c.Inv x.tick) (p : ConflictPolicy)
    {tick' : Bool} (htick : x.tick = true → tick' = false) : (c.next p x).Inv tick' := by
  obtain ⟨hic, hdc, hpc⟩ := c.next_countersFrom p x
  refine ⟨c.next_offLow p x h.offLow, fun hi => htick ?_, ?_, ?_, ?_⟩
  · by_contra hoff
    exact c.next_es_offCycle p x (Bool.eq_false_iff.mpr hoff) hi
  · exact counter_le h.icMax hic
  · exact counter_le h.dcMax (hdc.imp_right .inr)
  · exact counter_le h.pcMax hpc

/-! ### The invariants of the block -/

/-- The Trigger FSM of a channel the configuration has, after a cycle with any operation. -/
theorem State.afterBus_cycle_ch (s : State) (i : Instr) (r : Option Byte) {k : Fin 8}
    (hk : k.val < s.cfg.nTrig) :
    ((s.afterBus i).cycle r).ch[k] = s.ch[k].next s.cfg.policy ((s.afterBus i).triggerInputs k) := by
  simp [hk]

/-- The wall tick that the Trigger FSMs see is the Divider's strobe (R161). -/
@[simp] theorem State.triggerInputs_tick (s : State) (k : Fin 8) :
    (s.triggerInputs k).tick = s.dv.strobe := rfl

/-- R35 (a): the ClockDivider's counter stays below the period. -/
theorem ClockDivider.next_counter_le {cd : ClockDivider} {period : Nat} (h : cd.counter ≤ period - 1) :
    (cd.next period).counter ≤ period - 1 := by
  by_cases h0 : cd.counter = 0
  · rw [cd.next_reload period h0]
  · rw [cd.next_countdown period h0]; exact Nat.le_trans (Nat.sub_le _ _) h

/-- The cycle of any operation keeps the invariants. -/
theorem State.Inv.cycle {s : State} (h : s.Inv) (i : Instr) (r : Option Byte) :
    ((s.afterBus i).cycle r).Inv where
  cdCounter := by simpa using ClockDivider.next_counter_le h.cdCounter
  channels k hk := by
    have hk : k.val < s.cfg.nTrig := by simpa using hk
    rw [s.afterBus_cycle_ch i r hk]
    exact Channel.Inv.next (by simpa using h.channels k hk) _
      (by simpa using s.dv.next_afterTick s.cd.strobe _)

/-- Settles O54: the cycle's invariant is the channels' and the ClockDivider's, no tick follows a tick by the
Divider's force-low, and an off-cycle leaves no channel in Init. -/
theorem invariantKeptByEveryStep : Obligations.InvariantKeptByEveryStep := by
  intro s hs
  have hnoTick : s.dv.strobe = true →
      ((s.takeWord.afterBus (decode s.cfg s.busNow)).cycle
        (s.takeWord.readResult (decode s.cfg s.busNow))).dv.strobe = false := by
    simpa using s.dv.next_afterTick s.cd.strobe _
  refine ⟨_, step_eq s, State.Inv.cycle (s := s.takeWord) ⟨hs.cdCounter, hs.channels⟩ _ _, hnoTick,
    fun k hk hinit => ?_⟩
  have htick : s.dv.strobe = true := by
    by_contra hoff
    rw [State.afterBus_cycle_ch s.takeWord _ _ hk] at hinit
    exact Channel.next_es_offCycle _ _ _ (by simpa using hoff) hinit
  exact ⟨htick, hnoTick htick⟩

/-- Settles O55: at reset every counter is 0 and every channel is Off and low. -/
theorem invariantHoldsAtReset : Obligations.InvariantHoldsAtReset := fun cfg =>
  { cdCounter := Nat.zero_le _
    channels := fun k _ => by
      have hch : (State.resetOf cfg).ch[k] = Channel.reset := by simp [State.resetOf]
      rw [hch]
      exact ⟨fun _ => rfl, nofun, by decide, by decide, by decide⟩ }

end Sys2Proof.Machine

/-! PROOF. The Trigger FSM, mode by mode (42_trigger_fsm.md R164 to R175). At an enabled wall tick each
variable's next value is said once, from the steps that can write it; each obligation is a branch of the
steps put into those equations. -/

namespace Sys2Proof.Machine

/-! ### The merge of three writes of which at most one is made -/

section Pick
variable {α : Type} (p : ConflictPolicy) (a : Option α)

theorem pick_only_first : pick p [a, none, none] = a := by cases a <;> cases p <;> rfl
theorem pick_only_second : pick p [none, a, none] = a := by cases a <;> cases p <;> rfl
theorem pick_only_third : pick p [none, none, a] = a := by cases a <;> cases p <;> rfl

end Pick

/-! ### What each step leaves unwritten -/

section Unwritten
variable (x : TriggerInputs) (c : Channel)

theorem step2_pc : (step2 x c).pc = none := by
  rcases step2_cases x c with e | ⟨-, e⟩ | ⟨-, e⟩ | ⟨-, e⟩ | ⟨-, -, e⟩ | ⟨-, e⟩ <;> rw [e]

theorem step3_ic : (step3 x c).ic = none := by unfold step3; split_ifs <;> rfl
theorem step3_pc : (step3 x c).pc = none := by unfold step3; split_ifs <;> rfl
theorem step5_ic : (step5 c).ic = none := by unfold step5; split_ifs <;> rfl
theorem step5_dc : (step5 c).dc = none := by unfold step5; split_ifs <;> rfl

/-- Step 3 writes `exec_state` and the output only where it ends a pulse (R170). -/
theorem step3_silent (h : ¬ (c.PulseEnds ∧ x.mode ≠ .constant)) :
    (step3 x c).es = none ∧ (step3 x c).out = none := by
  rcases step3_cases x c with e | ⟨hend, e⟩ | ⟨-, -, e⟩
  · rw [e]; exact ⟨rfl, rfl⟩
  · rw [step3_constant x c (not_not.mp fun hm => h ⟨hend, hm⟩)]; exact ⟨rfl, rfl⟩
  · rw [e]; exact ⟨rfl, rfl⟩

/-- Step 5 writes `exec_state` and the output only where a phase delay expires (R172). -/
theorem step5_silent (h : ¬ c.PhaseEnds) : (step5 c).es = none ∧ (step5 c).out = none := by
  rcases step5_cases c with e | ⟨hend, -⟩ | ⟨-, -, e⟩
  · rw [e]; exact ⟨rfl, rfl⟩
  · exact absurd hend h
  · rw [e]; exact ⟨rfl, rfl⟩

/-- Step 3 counts `dc` down over a pulse that goes on, outside Constant (R170). -/
theorem step3_dc : (step3 x c).dc =
    if x.mode ≠ .constant ∧ c.out = true ∧ c.dc ≠ 0 then some (c.dc - 1) else none := by
  split_ifs with h
  · obtain ⟨hm, ho, hd⟩ := h
    rw [step3_counts x c hm ho hd]
  · rcases step3_cases x c with e | ⟨-, e⟩ | ⟨ho, hd, -⟩
    · rw [e]
    · rw [e]
    · rw [step3_constant x c (not_not.mp fun hm => h ⟨hm, ho, hd⟩)]

end Unwritten

/-! ### The next value of each variable at an enabled wall tick (R163, R173) -/

section Tick
variable {x : TriggerInputs} {c : Channel} (p : ConflictPolicy)
  (ht : x.tick = true) (he : x.en = true) (hi : c.es ≠ .init)
include ht he hi

theorem Channel.next_tick_ic : (c.next p x).ic = (step2 x c).ic.getD c.ic := by
  simp only [c.next_tick p x ht he hi, Channel.commit, merge, List.map_cons, List.map_nil, step3_ic,
    step5_ic, pick_only_first]

/-- `pc` counts down in Wait and above 0, in every mode and whatever the other steps do (R172). -/
theorem Channel.next_tick_pc :
    (c.next p x).pc = if c.es = .wait ∧ c.pc ≠ 0 then c.pc - 1 else c.pc := by
  simp only [c.next_tick p x ht he hi, Channel.commit, merge, List.map_cons, List.map_nil, step2_pc,
    step3_pc, pick_only_third]
  rcases step5_cases c with e | ⟨⟨-, hp⟩, e⟩ | ⟨hw, hp, e⟩
  · have hne : ¬ (c.es = .wait ∧ c.pc ≠ 0) := by
      rintro ⟨hw, hp⟩; rw [step5_counts c hw hp] at e; cases e
    rw [e, if_neg hne]; rfl
  · rw [e, if_neg fun h => h.2 hp]; rfl
  · rw [e, if_pos ⟨hw, hp⟩]; rfl

/-- Where step 2 does not load `dc`, it counts down over a pulse that goes on, outside Constant. -/
theorem Channel.next_tick_dc (h2 : (step2 x c).dc = none) :
    (c.next p x).dc = if x.mode ≠ .constant ∧ c.out = true ∧ c.dc ≠ 0 then c.dc - 1 else c.dc := by
  simp only [c.next_tick p x ht he hi, Channel.commit, merge, List.map_cons, List.map_nil, h2, step5_dc,
    pick_only_second, step3_dc]
  split_ifs <;> rfl

/-- Where no pulse counts down, `dc` is what step 2 loads. -/
theorem Channel.next_tick_dc_load (h3 : c.out = false ∨ c.dc = 0) :
    (c.next p x).dc = (step2 x c).dc.getD c.dc := by
  have hne : ¬ (x.mode ≠ .constant ∧ c.out = true ∧ c.dc ≠ 0) := by
    rintro ⟨-, ho, hd⟩
    rcases h3 with h | h
    · simp [h] at ho
    · exact hd h
  simp only [c.next_tick p x ht he hi, Channel.commit, merge, List.map_cons, List.map_nil, step5_dc,
    step3_dc, if_neg hne, pick_only_first]

theorem Channel.next_tick_es :
    (c.next p x).es = (pick p [(step2 x c).es, (step3 x c).es, (step5 c).es]).getD c.es := by
  rw [c.next_tick p x ht he hi]; rfl

theorem Channel.next_tick_out :
    (c.next p x).out = (pick p [(step2 x c).out, (step3 x c).out, (step5 c).out]).getD c.out := by
  rw [c.next_tick p x ht he hi]; rfl

/-- Where neither a pulse nor a phase delay ends, `exec_state` and the output are what step 2 writes. -/
theorem Channel.next_tick_step2 (h3 : ¬ (c.PulseEnds ∧ x.mode ≠ .constant)) (h5 : ¬ c.PhaseEnds) :
    (c.next p x).es = (step2 x c).es.getD c.es ∧ (c.next p x).out = (step2 x c).out.getD c.out := by
  obtain ⟨e3, o3⟩ := step3_silent x c h3
  obtain ⟨e5, o5⟩ := step5_silent c h5
  rw [c.next_tick_es p ht he hi, c.next_tick_out p ht he hi, e3, o3, e5, o5, pick_only_first,
    pick_only_first]
  exact ⟨rfl, rfl⟩

/-- Where step 2 writes neither and no phase delay expires, a pulse that ends lowers the output and leaves
the channel Off (R170). -/
theorem Channel.next_tick_pulseEnds (h2 : (step2 x c).es = none ∧ (step2 x c).out = none)
    (h3 : c.PulseEnds) (hm : x.mode ≠ .constant) (h5 : ¬ c.PhaseEnds) :
    (c.next p x).es = .off ∧ (c.next p x).out = false := by
  obtain ⟨e2, o2⟩ := h2
  obtain ⟨e5, o5⟩ := step5_silent c h5
  rw [c.next_tick_es p ht he hi, c.next_tick_out p ht he hi, e2, o2, e5, o5, step3_ends x c hm h3,
    pick_only_second, pick_only_second]
  exact ⟨rfl, rfl⟩

/-- Where step 2 writes neither and no pulse ends, a phase delay that expires raises the output and leaves
the channel Active (R172). -/
theorem Channel.next_tick_phaseEnds (h2 : (step2 x c).es = none ∧ (step2 x c).out = none)
    (h3 : ¬ (c.PulseEnds ∧ x.mode ≠ .constant)) (h5 : c.PhaseEnds) :
    (c.next p x).es = .active ∧ (c.next p x).out = true := by
  obtain ⟨e2, o2⟩ := h2
  obtain ⟨e3, o3⟩ := step3_silent x c h3
  rw [c.next_tick_es p ht he hi, c.next_tick_out p ht he hi, e2, o2, e3, o3, step5_ends c h5,
    pick_only_third, pick_only_third]
  exact ⟨rfl, rfl⟩

/-- A low channel with no phase delay to count is changed by step 2 alone. -/
theorem Channel.next_tick_rest (ho : c.out = false) (hw : c.es ≠ .wait) :
    c.next p x = c.commit (step2 x c) := by
  rw [c.next_tick p x ht he hi, step3_low x c ho, step5_rests c hw]
  simp only [merge, List.map_cons, List.map_nil, pick_only_first]

end Tick

/-! ### The whole channel after a cycle -/

/-- A claim about the next state of a channel is a claim about the step of its Trigger FSM, with the
operands of the cycle. -/
theorem onChannel_of_next {i : Instr} {s : State} {k : Fin 8}
    {Q : TriggerInputs → Channel → Channel → Prop} (hwf : i.wellFormed s.cfg = true)
    (hk : k.val < s.cfg.nTrig)
    (h : ∀ (x : TriggerInputs) (c : Channel), Q x c (c.next s.cfg.policy x)) : OnChannel i s k Q :=
  ⟨_, exec_eq i s hwf, by rw [s.afterBus_cycle_ch i _ hk]; exact h _ _⟩

/-! ### Disable, Init and off-cycles -/

/-- In an off-cycle the enable bit is not looked at (R164, R171). -/
theorem Channel.next_offCycle_en (p : ConflictPolicy) (x : TriggerInputs) (c : Channel) (e : Bool)
    (ht : x.tick = false) : c.next p { x with en := e } = c.next p x := by
  by_cases hi : c.es = .init
  · rw [Channel.next_init p x c ht hi, Channel.next_init p { x with en := e } c ht hi]
  · rw [Channel.next_offCycle p x c ht hi, Channel.next_offCycle p { x with en := e } c ht hi]

/-- Settles O31: step 1 alone at the tick, and no step that looks at the enable bit off it. -/
theorem disableForcesTheChannelOff : Obligations.DisableForcesTheChannelOff := fun _ s _ hwf hk =>
  onChannel_of_next hwf hk fun x c =>
    ⟨fun ht he => c.next_disabled _ x ht he, fun ht e => (c.next_offCycle_en s.cfg.policy x e ht).symm⟩

/-- Settles O38: step 4 alone. -/
theorem phaseResolution : Obligations.PhaseResolution := fun _ _ _ hwf hk =>
  onChannel_of_next hwf hk fun x c ht hi =>
    ⟨fun hp => (c.next_init _ x ht hi).trans (if_pos hp),
      fun hp => (c.next_init _ x ht hi).trans (if_neg hp)⟩

/-- Settles O40: no step runs. -/
theorem offCycleHoldsTheChannel : Obligations.OffCycleHoldsTheChannel := fun _ _ _ hwf hk =>
  onChannel_of_next hwf hk fun x c ht hi => c.next_offCycle _ x ht hi

/-- Settles O56: every counter comes from the channel or the operands as each step's commit allows. -/
theorem countersNeverWrap : Obligations.CountersNeverWrap := fun _ _ _ hwf hk =>
  onChannel_of_next hwf hk fun x c =>
    have h := c.next_countersFrom _ x
    ⟨h.ic, h.dc, h.pc⟩

/-! ### Stop (R165) -/

/-- Stop lowers the output and the channel is Off, whether or not a pulse ends too, unless a phase delay
expires. -/
theorem Channel.next_stop {x : TriggerInputs} {c : Channel} (p : ConflictPolicy) (ht : x.tick = true)
    (he : x.en = true) (hi : c.es ≠ .init) (hm : x.mode = .stop) (h5 : ¬ c.PhaseEnds) :
    (c.next p x).out = false ∧ (c.next p x).es = .off := by
  obtain ⟨e5, o5⟩ := step5_silent c h5
  rw [c.next_tick_es p ht he hi, c.next_tick_out p ht he hi, e5, o5, step2_stop x c hm]
  by_cases h3 : c.PulseEnds
  · rw [step3_ends x c (by simp [hm]) h3]
    cases p <;> exact ⟨rfl, rfl⟩
  · obtain ⟨e3, o3⟩ := step3_silent x c fun h => h3 h.1
    rw [e3, o3, pick_only_first, pick_only_first]
    exact ⟨rfl, rfl⟩

/-- Settles O32: step 2 writes no counter in Stop, so each counter is as steps 3 and 5 leave it. -/
theorem stopLowersTheOutput : Obligations.StopLowersTheOutput := fun _ s _ hwf hk =>
  onChannel_of_next hwf hk fun x c ht he hm hi => by
    have h2 := step2_stop x c hm
    refine ⟨c.next_stop _ ht he hi hm, ?_, ?_, c.next_tick_pc _ ht he hi⟩
    · rw [c.next_tick_ic _ ht he hi, h2]; rfl
    · rw [c.next_tick_dc _ ht he hi (by rw [h2])]
      simp [hm]

/-! ### Interval (R167) -/

/-- An arming loads both counters unless a pulse counts down, and `pc` counts on. -/
theorem Channel.next_arms_counters {x : TriggerInputs} {c : Channel} (p : ConflictPolicy)
    (ht : x.tick = true) (he : x.en = true) (hi : c.es ≠ .init) (h : x.Arms c) :
    (c.next p x).ic = x.n - 1
    ∧ (c.next p x).pc = (if c.es = .wait ∧ c.pc ≠ 0 then c.pc - 1 else c.pc)
    ∧ (c.out = false ∨ c.dc = 0 → (c.next p x).dc = x.d - 1) := by
  refine ⟨?_, c.next_tick_pc p ht he hi, fun h3 => ?_⟩
  · rw [c.next_tick_ic p ht he hi, step2_arms x c h]; rfl
  · rw [c.next_tick_dc_load p ht he hi h3, step2_arms x c h]; rfl

/-- An arming with no phase delay that expires and no pulse that ends leaves the channel in Init with its
output as it was. -/
theorem Channel.next_arms_init {x : TriggerInputs} {c : Channel} (p : ConflictPolicy)
    (ht : x.tick = true) (he : x.en = true) (hi : c.es ≠ .init) (h : x.Arms c) (h3 : ¬ c.PulseEnds)
    (h5 : ¬ c.PhaseEnds) : (c.next p x).es = .init ∧ (c.next p x).out = c.out := by
  rw [(c.next_tick_step2 p ht he hi (fun h => h3 h.1) h5).1,
    (c.next_tick_step2 p ht he hi (fun h => h3 h.1) h5).2, step2_arms x c h]
  exact ⟨rfl, rfl⟩

/-- Where step 2 does not write `exec_state`, nothing arms the channel. -/
theorem Channel.next_tick_notArmed {x : TriggerInputs} {c : Channel} (p : ConflictPolicy)
    (ht : x.tick = true) (he : x.en = true) (hi : c.es ≠ .init) (h2 : (step2 x c).es = none) :
    (c.next p x).es ≠ .init := by
  rw [c.next_tick p x ht he hi]
  refine commit_merge_induction (P := fun c => c.es ≠ .init) p _ hi fun a ha c' hc' => ?_
  simp only [List.mem_cons, List.not_mem_nil, or_false] at ha
  rcases ha with rfl | rfl | rfl
  · simpa [Channel.commit, h2] using hc'
  · rcases step3_cases x c with e | ⟨-, e⟩ | ⟨-, -, e⟩ <;> rw [e]
    · exact hc'
    · exact ExecState.noConfusion
    · exact hc'
  · rcases step5_cases c with e | ⟨-, e⟩ | ⟨-, -, e⟩ <;> rw [e]
    · exact hc'
    · exact ExecState.noConfusion
    · exact hc'

/-- Settles O34: by the three branches of step 2 in Interval. -/
theorem intervalArmsOrCounts : Obligations.IntervalArmsOrCounts := fun _ s _ hwf hk =>
  onChannel_of_next hwf hk fun x c ht he hm hi => by
    refine ⟨c.next_arms_counters _ ht he hi, fun ha ho h5 => ?_, fun hd hn hic => ?_, fun h0 => ?_⟩
    · rw [← ho]
      exact c.next_arms_init _ ht he hi ha (fun h3 => by simpa [ho] using h3.1) h5
    · have h2 := step2_interval_counts x c hm hd hn hic
      refine ⟨?_, c.next_tick_notArmed _ ht he hi (by rw [h2]), fun hw ho => ?_⟩
      · rw [c.next_tick_ic _ ht he hi, h2]; rfl
      · rw [c.next_tick_rest _ ht he hi ho hw, h2]; rfl
    · have h2 := step2_interval_rests x c hm h0
      refine ⟨?_, c.next_tick_notArmed _ ht he hi (by rw [h2]), fun hw ho => ?_⟩
      · rw [c.next_tick_ic _ ht he hi, h2]; rfl
      · rw [c.next_tick_rest _ ht he hi ho hw, h2]; rfl

/-! ### OneShot (R168) and Constant (R169) -/

/-- Settles O35: step 2 arms from Off, where the channel is low and no other step writes; elsewhere it
writes nothing. -/
theorem oneShotArmsOnceFromOff : Obligations.OneShotArmsOnceFromOff := fun _ s _ hwf hk =>
  onChannel_of_next hwf hk fun x c ht he hm hi hlow => by
    have hrest (hoff : c.es = .off) : c.next s.cfg.policy x = c.commit (step2 x c) :=
      c.next_tick_rest _ ht he hi (hlow hoff) (by simp [hoff])
    refine ⟨?_, fun hd hoff => ?_, fun h => ?_, fun hd hoff => ?_⟩
    · rw [c.next_tick_ic _ ht he hi]
      by_cases h : x.d = 0 ∨ c.es ≠ .off
      · rw [step2_oneShot_rests x c hm h]; rfl
      · obtain ⟨hd, hoff⟩ := not_or.mp h
        rw [step2_oneShot_arms x c hm hd (not_not.mp hoff)]; rfl
    · rw [hrest hoff, step2_oneShot_arms x c hm hd hoff]; rfl
    · exact c.next_tick_notArmed _ ht he hi (by rw [step2_oneShot_rests x c hm h])
    · rw [hrest hoff, step2_oneShot_rests x c hm (.inl hd)]; rfl

/-- In Constant steps 2 and 5 do not both write: step 2 writes from Off alone (R169). -/
theorem Channel.next_constant {x : TriggerInputs} {c : Channel} (p : ConflictPolicy)
    (ht : x.tick = true) (he : x.en = true) (hi : c.es ≠ .init) (hm : x.mode = .constant) :
    c.next p x = c.commit (if c.es = .off then step2 x c else step5 c) := by
  rw [c.next_tick p x ht he hi, step3_constant x c hm]
  split_ifs with hoff
  · rw [step5_rests c (by simp [hoff])]
    simp only [merge, List.map_cons, List.map_nil, pick_only_first]
  · rw [step2_constant_rests x c hm hoff]
    simp only [merge, List.map_cons, List.map_nil, pick_only_third]

/-- Settles O36: step 2 from Off, step 5 from Wait, no step in Active. -/
theorem constantArmsAndHolds : Obligations.ConstantArmsAndHolds := fun _ s _ hwf hk =>
  onChannel_of_next hwf hk fun x c ht he hm => by
    have hnext (hi : c.es ≠ .init) := c.next_constant s.cfg.policy ht he hi hm
    refine ⟨fun hes => ?_, fun hes => ?_, fun hes hp => ?_, fun hes hp => ?_⟩ <;>
      rw [hnext (by simp [hes])]
    · rw [if_pos hes, step2_constant_arms x c hm hes]; rfl
    · rw [if_neg (by simp [hes]), step5_rests c (by simp [hes])]; rfl
    · rw [if_neg (by simp [hes]), step5_counts c hes hp]; rfl
    · rw [if_neg (by simp [hes]), step5_ends c ⟨hes, hp⟩]; rfl

/-! ### The countdowns (R170, R172) -/

/-- Where a channel is not Off and no arming takes place, step 2 writes at most `ic`, but in Stop. -/
theorem step2_of_notArming {x : TriggerInputs} {c : Channel} (hm : x.mode ≠ .stop) (ha : ¬ x.Arms c)
    (hoff : c.es ≠ .off) :
    (step2 x c).es = none ∧ (step2 x c).out = none ∧ (step2 x c).dc = none := by
  rcases step2_cases x c with e | ⟨h, -⟩ | ⟨h, -⟩ | ⟨-, e⟩ | ⟨-, h, -⟩ | ⟨h, -⟩
  · rw [e]; exact ⟨rfl, rfl, rfl⟩
  · exact absurd h hm
  · exact absurd h ha
  · rw [e]; exact ⟨rfl, rfl, rfl⟩
  · exact absurd h hoff
  · exact absurd h hoff

/-- Settles O37: step 3 counts or ends the pulse, and step 5 goes on beside it. -/
theorem durationCountdown : Obligations.DurationCountdown := fun _ s _ hwf hk =>
  onChannel_of_next hwf hk fun x c ht he hc hs hes ho ha => by
    have hi : c.es ≠ .init := by rcases hes with h | h <;> simp [h]
    obtain ⟨e2, o2, d2⟩ := step2_of_notArming hs ha (by rcases hes with h | h <;> simp [h])
    have hdc := c.next_tick_dc s.cfg.policy ht he hi d2
    have hpc := c.next_tick_pc s.cfg.policy ht he hi
    constructor
    · intro hd h5
      obtain ⟨hoff, hlow⟩ := c.next_tick_pulseEnds s.cfg.policy ht he hi ⟨e2, o2⟩ ⟨ho, hd⟩ hc h5
      refine ⟨hlow, hoff, hdc.trans (if_neg fun h => h.2.2 hd), hpc.trans (if_congr ?_ rfl rfl)⟩
      exact ⟨And.left, fun hw => ⟨hw, fun hp => h5 ⟨hw, hp⟩⟩⟩
    · intro hd
      have h3 : ¬ (c.PulseEnds ∧ x.mode ≠ .constant) := fun h => hd h.1.2
      refine ⟨?_, hdc.trans (if_pos ⟨hc, ho, hd⟩), fun hact => ?_, fun hw hp => ?_, fun hw hp => ?_⟩
      · by_cases h5 : c.PhaseEnds
        · exact (c.next_tick_phaseEnds _ ht he hi ⟨e2, o2⟩ h3 h5).2
        · rw [(c.next_tick_step2 _ ht he hi h3 h5).2, o2]; exact ho
      · have h5 : ¬ c.PhaseEnds := fun h => by simpa [hact] using h.1
        rw [(c.next_tick_step2 _ ht he hi h3 h5).1, e2]
        exact ⟨hact, hpc.trans (if_neg fun h => by simp [hact] at h)⟩
      · exact ⟨(c.next_tick_phaseEnds _ ht he hi ⟨e2, o2⟩ h3 ⟨hw, hp⟩).1,
          hpc.trans (if_neg fun h => h.2 hp)⟩
      · rw [(c.next_tick_step2 _ ht he hi h3 fun h => hp h.2).1, e2]
        exact ⟨hw, hpc.trans (if_pos ⟨hw, hp⟩)⟩

/-- Settles O39: step 5 counts or ends the delay, and step 3 goes on beside it. -/
theorem phaseCountdown : Obligations.PhaseCountdown := fun _ s _ hwf hk =>
  onChannel_of_next hwf hk fun x c ht he hs ha hw => by
    have hi : c.es ≠ .init := by simp [hw]
    obtain ⟨e2, o2, d2⟩ := step2_of_notArming hs ha (by simp [hw])
    have hdc := c.next_tick_dc s.cfg.policy ht he hi d2
    have hpc := c.next_tick_pc s.cfg.policy ht he hi
    refine ⟨fun hp => ⟨hpc.trans (if_neg fun h => h.2 hp), fun h3 => ?_⟩, fun hp => ?_, fun h => ?_,
      fun ho hm => ?_⟩
    · exact (c.next_tick_phaseEnds _ ht he hi ⟨e2, o2⟩ h3 ⟨hw, hp⟩).symm
    · have h5 : ¬ c.PhaseEnds := fun h => hp h.2
      refine ⟨hpc.trans (if_pos ⟨hw, hp⟩), fun h3 => ?_, fun ⟨h3, hm⟩ => ?_⟩
      · rw [(c.next_tick_step2 _ ht he hi h3 h5).1, (c.next_tick_step2 _ ht he hi h3 h5).2, e2, o2]
        exact ⟨rfl, hw⟩
      · exact (c.next_tick_pulseEnds _ ht he hi ⟨e2, o2⟩ h3 hm h5).symm
    · refine hdc.trans (if_neg fun hcount => ?_)
      rcases h with h | h
      · simp [h] at hcount
      · exact hcount.1 h
    · rw [hdc]
      by_cases hd : c.dc = 0
      · rw [if_neg fun h => h.2.2 hd, if_pos hd]
      · rw [if_pos ⟨hm, ho, hd⟩, if_neg hd]

end Sys2Proof.Machine

/-! PROOF. The conflicts of the Trigger FSM's steps (42_trigger_fsm.md R163, R175): the six rows under both
policies, and that assignments which agree wherever they overlap merge alike under both. -/

namespace Sys2Proof.Machine

/-! ### The rows of the table -/

section Rows
variable {x : TriggerInputs} {c : Channel} (p : ConflictPolicy)
  (ht : x.tick = true) (he : x.en = true) (hi : c.es ≠ .init)
include ht he hi

/-- K1: an arming and a pulse that counts down both write `dc`. -/
theorem Channel.next_arms_counting (ha : x.Arms c) (ho : c.out = true) (hd : c.dc ≠ 0) :
    (c.next p x).dc = if p = .earlierWins then x.d - 1 else c.dc - 1 := by
  simp only [c.next_tick p x ht he hi, Channel.commit, merge, List.map_cons, List.map_nil, step5_dc,
    step2_arms x c ha, step3_counts x c (by simp [ha.1]) ho hd]
  cases p <;> rfl

/-- K2: an arming over a pulse that ends. -/
theorem Channel.next_arms_pulseEnds (ha : x.Arms c) (h3 : c.PulseEnds) (h5 : ¬ c.PhaseEnds) :
    (c.next p x).out = false ∧ (c.next p x).es = if p = .earlierWins then .init else .off := by
  obtain ⟨e5, o5⟩ := step5_silent c h5
  rw [c.next_tick_es p ht he hi, c.next_tick_out p ht he hi, step2_arms x c ha,
    step3_ends x c (by simp [ha.1]) h3, e5, o5]
  cases p <;> exact ⟨rfl, rfl⟩

/-- K3: a pulse and a phase delay that both end. -/
theorem Channel.next_bothEnd (h2 : (step2 x c).es = none ∧ (step2 x c).out = none) (h3 : c.PulseEnds)
    (hm : x.mode ≠ .constant) (h5 : c.PhaseEnds) :
    if p = .earlierWins then (c.next p x).out = false ∧ (c.next p x).es = .off
      else (c.next p x).out = true ∧ (c.next p x).es = .active := by
  obtain ⟨e2, o2⟩ := h2
  rw [c.next_tick_es p ht he hi, c.next_tick_out p ht he hi, e2, o2, step3_ends x c hm h3, step5_ends c h5]
  cases p <;> exact ⟨rfl, rfl⟩

/-- K4: Stop and a phase delay that expires, whether or not a pulse ends too. -/
theorem Channel.next_stop_phaseEnds (hm : x.mode = .stop) (h5 : c.PhaseEnds) :
    if p = .earlierWins then (c.next p x).out = false ∧ (c.next p x).es = .off
      else (c.next p x).out = true ∧ (c.next p x).es = .active := by
  rw [c.next_tick_es p ht he hi, c.next_tick_out p ht he hi, step2_stop x c hm, step5_ends c h5]
  simp only [pick_three]
  cases p <;> exact ⟨rfl, rfl⟩

/-- K5: an arming and a phase delay that expires, with no pulse that ends. -/
theorem Channel.next_arms_phaseEnds (ha : x.Arms c) (h3 : ¬ c.PulseEnds) (h5 : c.PhaseEnds) :
    (c.next p x).out = true ∧ (c.next p x).es = if p = .earlierWins then .init else .active := by
  obtain ⟨e3, o3⟩ := step3_silent x c fun h => h3 h.1
  rw [c.next_tick_es p ht he hi, c.next_tick_out p ht he hi, step2_arms x c ha, e3, o3, step5_ends c h5]
  cases p <;> exact ⟨rfl, rfl⟩

/-- K6: an arming, a pulse that ends and a phase delay that expires. -/
theorem Channel.next_arms_bothEnd (ha : x.Arms c) (h3 : c.PulseEnds) (h5 : c.PhaseEnds) :
    if p = .earlierWins then (c.next p x).out = false ∧ (c.next p x).es = .init
      else (c.next p x).out = true ∧ (c.next p x).es = .active := by
  rw [c.next_tick_es p ht he hi, c.next_tick_out p ht he hi, step2_arms x c ha,
    step3_ends x c (by simp [ha.1]) h3, step5_ends c h5]
  cases p <;> exact ⟨rfl, rfl⟩

end Rows

/-- Settles O41: one lemma for each row; an arming over a pulse that counts down writes the output in no
step. -/
theorem conflictTable : Obligations.ConflictTable := fun _ _ _ hwf hk =>
  onChannel_of_next hwf hk fun x c ht he hi =>
    ⟨fun ha ho hd => ⟨c.next_arms_counting _ ht he hi ha ho hd, fun h5 =>
        have h := c.next_arms_init _ ht he hi ha (fun h3 => hd h3.2) h5
        ⟨h.1, h.2.trans ho⟩⟩,
      fun ha h3 h5 =>
        have h := c.next_arms_pulseEnds _ ht he hi ha h3 h5
        ⟨h.1, h.2, (c.next_arms_counters _ ht he hi ha).1⟩,
      fun h5 h3 hc hs ha =>
        have h := step2_of_notArming hs ha (by simp [h5.1])
        c.next_bothEnd _ ht he hi ⟨h.1, h.2.1⟩ h3 hc h5,
      fun h5 hs => c.next_stop_phaseEnds _ ht he hi hs h5,
      fun h5 ha h3 => c.next_arms_phaseEnds _ ht he hi ha h3 h5,
      fun h5 ha h3 => c.next_arms_bothEnd _ ht he hi ha h3 h5⟩

/-! ### Assignments without a conflict merge alike -/

/-- Two writes of one variable do not conflict: at most one is made, or both write the same value. -/
def NoClash {α : Type} (a b : Option α) : Prop := a = none ∨ b = none ∨ a = b

theorem pick_three_noClash {α : Type} {a b c : Option α} (hab : NoClash a b) (hac : NoClash a c)
    (hbc : NoClash b c) : pick .earlierWins [a, b, c] = pick .laterWins [a, b, c] := by
  simp only [pick_three, NoClash] at *
  cases a <;> cases b <;> cases c <;> simp_all

/-- Two assignments do not conflict in any variable. -/
structure Assign.Compatible (a b : Assign) : Prop where
  es : NoClash a.es b.es
  ic : NoClash a.ic b.ic
  dc : NoClash a.dc b.dc
  pc : NoClash a.pc b.pc
  out : NoClash a.out b.out

theorem merge_three_compatible {a b c : Assign} (hab : a.Compatible b) (hac : a.Compatible c)
    (hbc : b.Compatible c) : merge .earlierWins [a, b, c] = merge .laterWins [a, b, c] := by
  simp only [merge, List.map_cons, List.map_nil, pick_three_noClash hab.es hac.es hbc.es,
    pick_three_noClash hab.ic hac.ic hbc.ic, pick_three_noClash hab.dc hac.dc hbc.dc,
    pick_three_noClash hab.pc hac.pc hbc.pc, pick_three_noClash hab.out hac.out hbc.out]

theorem Assign.empty_compatible (b : Assign) : ({} : Assign).Compatible b :=
  ⟨.inl rfl, .inl rfl, .inl rfl, .inl rfl, .inl rfl⟩

theorem Assign.compatible_empty (a : Assign) : a.Compatible {} :=
  ⟨.inr (.inl rfl), .inr (.inl rfl), .inr (.inl rfl), .inr (.inl rfl), .inr (.inl rfl)⟩

/-- A step that writes `ic` alone conflicts with neither countdown, since these do not write it. -/
theorem Assign.ic_compatible (v : Byte) {b : Assign} (hb : b.ic = none) :
    ({ ic := some v } : Assign).Compatible b :=
  ⟨.inl rfl, .inr (.inl hb), .inl rfl, .inl rfl, .inl rfl⟩

/-- Steps 2 and 3 conflict only where an arming of Interval meets a high output (K1, K2, K6). -/
theorem step2_step3_compatible {x : TriggerInputs} {c : Channel} (hlow : c.es = .off → c.out = false)
    (h : ¬ (x.Arms c ∧ c.out = true)) : (step2 x c).Compatible (step3 x c) := by
  have hempty (ho : c.out = false) : (step2 x c).Compatible (step3 x c) := by
    rw [step3_low x c ho]; exact Assign.compatible_empty _
  rcases step2_cases x c with e | ⟨-, e⟩ | ⟨ha, -⟩ | ⟨-, e⟩ | ⟨-, hoff, -⟩ | ⟨hoff, -⟩
  · rw [e]; exact Assign.empty_compatible _
  · rw [e]
    rcases step3_cases x c with e | ⟨-, e⟩ | ⟨-, -, e⟩ <;> rw [e]
    · exact Assign.compatible_empty _
    · exact ⟨.inr (.inr rfl), .inl rfl, .inl rfl, .inl rfl, .inr (.inr rfl)⟩
    · exact ⟨.inr (.inl rfl), .inl rfl, .inl rfl, .inl rfl, .inr (.inl rfl)⟩
  · exact hempty (Bool.eq_false_iff.mpr fun ho => h ⟨ha, ho⟩)
  · rw [e]; exact Assign.ic_compatible _ (step3_ic x c)
  · exact hempty (hlow hoff)
  · exact hempty (hlow hoff)

/-- Steps 2 and 5 conflict only where a phase delay expires in Stop or at an arming (K4, K5, K6). -/
theorem step2_step5_compatible {x : TriggerInputs} {c : Channel}
    (h : ¬ (c.PhaseEnds ∧ (x.mode = .stop ∨ x.Arms c))) : (step2 x c).Compatible (step5 c) := by
  rcases step5_cases c with e | ⟨h5, e⟩ | ⟨-, -, e⟩
  · rw [e]; exact Assign.compatible_empty _
  · rcases step2_cases x c with e2 | ⟨hs, -⟩ | ⟨ha, -⟩ | ⟨-, e2⟩ | ⟨-, hoff, -⟩ | ⟨hoff, -⟩
    · rw [e2]; exact Assign.empty_compatible _
    · exact absurd ⟨h5, .inl hs⟩ h
    · exact absurd ⟨h5, .inr ha⟩ h
    · rw [e2]; exact Assign.ic_compatible _ (step5_ic c)
    · simp [h5.1] at hoff
    · simp [h5.1] at hoff
  · rw [e]
    exact ⟨.inr (.inl rfl), .inr (.inl rfl), .inr (.inl rfl), .inl (step2_pc x c), .inr (.inl rfl)⟩

/-- Steps 3 and 5 conflict only where a pulse and a phase delay both end (K3, K6). -/
theorem step3_step5_compatible {x : TriggerInputs} {c : Channel}
    (h : ¬ (c.PhaseEnds ∧ c.PulseEnds ∧ x.mode ≠ .constant)) : (step3 x c).Compatible (step5 c) := by
  have hsilent (hs : (step3 x c).es = none ∧ (step3 x c).out = none) :
      (step3 x c).Compatible (step5 c) :=
    ⟨.inl hs.1, .inl (step3_ic x c), .inr (.inl (step5_dc c)), .inl (step3_pc x c), .inl hs.2⟩
  by_cases h3 : c.PulseEnds ∧ x.mode ≠ .constant
  · obtain ⟨e5, o5⟩ := step5_silent c fun h5 => h ⟨h5, h3⟩
    exact ⟨.inr (.inl e5), .inl (step3_ic x c), .inr (.inl (step5_dc c)), .inl (step3_pc x c),
      .inr (.inl o5)⟩
  · exact hsilent (step3_silent x c h3)

/-- Settles O42: off the enabled wall tick one step runs at most; at it the three steps' assignments are
pairwise compatible where no conflict of the table holds. -/
theorem policyMattersOnlyInTheConflicts : Obligations.PolicyMattersOnlyInTheConflicts := by
  intro x c hinv h
  cases ht : x.tick with
  | false =>
    by_cases hi : c.es = .init
    · rw [Channel.next_init _ x c ht hi, Channel.next_init _ x c ht hi]
    · rw [Channel.next_offCycle _ x c ht hi, Channel.next_offCycle _ x c ht hi]
  | true =>
    cases he : x.en with
    | false => rw [Channel.next_disabled _ x c ht he, Channel.next_disabled _ x c ht he]
    | true =>
      have hi : c.es ≠ .init := fun hi => by simpa [ht] using hinv.initOffTick hi
      have hK := fun hK => h ⟨ht, he, hK⟩
      rw [Channel.next_tick _ x c ht he hi, Channel.next_tick _ x c ht he hi,
        merge_three_compatible
          (step2_step3_compatible hinv.offLow fun hc => hK (.inl hc))
          (step2_step5_compatible fun ⟨h5, h2⟩ => hK (.inr (.inr (h2.imp (⟨h5, ·⟩) (⟨h5, ·⟩)))))
          (step3_step5_compatible fun hc => hK (.inr (.inl hc)))]

/-! ### The TriggerController (43_trigger_controller.md R191, R192) -/

/-- At a wall tick the controller rewrites OneShot to Idle over a high output, and nothing else. -/
theorem modeNext_tick (m : ModeCodes) (b : Byte) (out : Bool) :
    modeNext m true b out = if b = m.oneShot ∧ out = true then m.idle else b := rfl

/-- Off the wall tick the controller rewrites Idle to Stop under a low output, and nothing else. -/
theorem modeNext_offTick (m : ModeCodes) (b : Byte) (out : Bool) :
    modeNext m false b out = if b = m.idle ∧ out = false then m.stop else b := rfl

/-- A byte that is neither OneShot nor Idle is not rewritten (R192). -/
theorem modeNext_of_ne {m : ModeCodes} {b : Byte} (ho : b ≠ m.oneShot) (hi : b ≠ m.idle) (tick out : Bool) :
    modeNext m tick b out = b := by
  cases tick
  · rw [modeNext_offTick, if_neg fun h => hi h.1]
  · rw [modeNext_tick, if_neg fun h => ho h.1]

/-- The Mode register of a channel the configuration has, after a cycle with any operation. -/
theorem State.afterBus_cycle_mode (s : State) (i : Instr) (r : Option Byte) {k : Fin 8}
    (hk : k.val < s.cfg.nTrig) :
    ((s.afterBus i).cycle r).regs.mode[k] =
      modeNext s.cfg.modes s.dv.strobe (s.afterBus i).regs.mode[k] s.ch[k].out := by
  simp [hk]

/-- Settles O46: the two components of the channel run on the post-write registers, by their own
equations. -/
theorem controllerRewritesMode : Obligations.ControllerRewritesMode := by
  intro i s k hwf hk
  refine ⟨_, exec_eq i s hwf, ?_, by simp [State.triggerInputs], s.afterBus_cycle_ch i _ hk⟩
  rw [s.afterBus_cycle_mode i _ hk]
  cases s.dv.strobe
  · exact modeNext_offTick _ _ _
  · exact modeNext_tick _ _ _

/-- Settles O47: by the two branches of the controller that rewrite. -/
theorem onlyOneShotAndIdleAreRewritten : Obligations.OnlyOneShotAndIdleAreRewritten := by
  intro i s k hwf hk
  refine ⟨_, exec_eq i s hwf, ?_⟩
  simp only [s.afterBus_cycle_mode i _ hk]
  cases s.dv.strobe
  · rw [modeNext_offTick]
    split_ifs with h
    · exact fun _ => .inr ⟨h.1, rfl⟩
    · exact fun hne => absurd rfl hne
  · rw [modeNext_tick]
    split_ifs with h
    · exact fun _ => .inl ⟨h.1, rfl⟩
    · exact fun hne => absurd rfl hne

end Sys2Proof.Machine

/-! PROOF. Mode bytes that are no code of a running mode (42_trigger_fsm.md R166, 43_trigger_controller.md
R192 to R194): an unmapped byte acts as Idle and stays, and Idle is transient under a low output. -/

namespace Sys2Proof.Machine

/-! ### The classes of a mode byte (R85) -/

theorem modeCodes_distinct_iff (m : ModeCodes) : m.distinct = true ↔
    (m.stop ≠ m.idle ∧ m.stop ≠ m.interval ∧ m.stop ≠ m.oneShot ∧ m.stop ≠ m.constant)
    ∧ (m.idle ≠ m.interval ∧ m.idle ≠ m.oneShot ∧ m.idle ≠ m.constant)
    ∧ (m.interval ≠ m.oneShot ∧ m.interval ≠ m.constant) ∧ m.oneShot ≠ m.constant := by
  simp [ModeCodes.distinct]

theorem modeOf_stop (m : ModeCodes) : modeOf m m.stop = .stop := if_pos rfl

theorem modeOf_idle {m : ModeCodes} (h : m.distinct = true) : modeOf m m.idle = .idle := by
  obtain ⟨⟨hsi, -⟩, -⟩ := (modeCodes_distinct_iff m).mp h
  simp [modeOf, hsi.symm]

theorem modeOf_interval {m : ModeCodes} (h : m.distinct = true) : modeOf m m.interval = .interval := by
  obtain ⟨⟨-, hsn, -⟩, ⟨hin, -⟩, -⟩ := (modeCodes_distinct_iff m).mp h
  simp [modeOf, hsn.symm, hin.symm]

theorem modeOf_oneShot {m : ModeCodes} (h : m.distinct = true) : modeOf m m.oneShot = .oneShot := by
  obtain ⟨⟨-, -, hso, -⟩, ⟨-, hio, -⟩, ⟨hno, -⟩, -⟩ := (modeCodes_distinct_iff m).mp h
  simp [modeOf, hso.symm, hio.symm, hno.symm]

theorem modeOf_unmapped {m : ModeCodes} {b : Byte}
    (h : b ∉ [m.stop, m.idle, m.interval, m.oneShot, m.constant]) : modeOf m b = .unmapped := by
  simp only [List.mem_cons, List.not_mem_nil, or_false, not_or] at h
  obtain ⟨hs, hi, hn, ho, hc⟩ := h
  simp [modeOf, hs, hi, hn, ho, hc]

/-! ### A channel in Idle (R166) -/

/-- No step tells an unmapped mode from Idle. -/
theorem Channel.next_unmapped (p : ConflictPolicy) (x : TriggerInputs) (c : Channel) :
    c.next p { x with mode := .unmapped } = c.next p { x with mode := .idle } := rfl

/-- A wall tick that finds an enabled channel in Init and in Idle: steps 3 and 4 are merged (R173). -/
theorem Channel.next_tick_idle_init {x : TriggerInputs} (p : ConflictPolicy) {c : Channel}
    (ht : x.tick = true) (he : x.en = true) (hm : x.mode = .idle) (hi : c.es = .init) :
    c.next p x = c.commit (merge p [{}, step3 x c, step4 x c, {}]) := by
  simp [Channel.next, Channel.assignment, TriggerInputs.disables, TriggerInputs.gated, ht, he,
    step2_idle x c (.inl hm), step5_rests c (by simp [hi])]

/-- Idle arms no channel, and a channel in Init leaves it at every edge. -/
theorem Channel.next_idle_es {x : TriggerInputs} (p : ConflictPolicy) (c : Channel) (hm : x.mode = .idle) :
    (c.next p x).es ≠ .init := by
  cases ht : x.tick with
  | false => exact c.next_es_offCycle p x ht
  | true =>
    cases he : x.en with
    | false => rw [c.next_disabled p x ht he]; exact ExecState.noConfusion
    | true =>
      by_cases hi : c.es = .init
      · rw [c.next_tick_idle_init p ht he hm hi]
        have h4 : (step4 x c).es = some .active ∨ (step4 x c).es = some .wait := by
          unfold step4; split_ifs <;> simp
        have h3 : (step3 x c).es = none ∨ (step3 x c).es = some .off := by
          rcases step3_cases x c with e | ⟨-, e⟩ | ⟨-, -, e⟩ <;> simp [e]
        rcases h4 with h4 | h4 <;> rcases h3 with h3 | h3 <;> cases p <;>
          simp [Channel.commit, merge, h3, h4]
      · exact c.next_tick_notArmed p ht he hi (by rw [step2_idle x c (.inl hm)])

/-- `ic` is written by step 2 alone, at every edge but a disabling one. -/
theorem Channel.next_ic {x : TriggerInputs} (p : ConflictPolicy) (c : Channel) (hd : x.disables = false) :
    (c.next p x).ic = (gate x.gated (step2 x c)).ic.getD c.ic := by
  have h3 : (gate x.gated (step3 x c)).ic = none := by cases x.gated <;> simp [step3_ic]
  have h4 : (step4 x c).ic = none := by unfold step4; split_ifs <;> rfl
  have h5 : (gate x.gated (step5 c)).ic = none := by cases x.gated <;> simp [step5_ic]
  simp [Channel.next, Channel.assignment, hd, Channel.commit, merge, h3, h4, h5, pick_third_none,
    pick_only_first]

/-- Idle leaves `ic`, at every edge but a disabling one. -/
theorem Channel.next_idle_ic {x : TriggerInputs} (p : ConflictPolicy) (c : Channel) (hm : x.mode = .idle)
    (h : x.tick = false ∨ x.en = true) : (c.next p x).ic = c.ic := by
  have hd : x.disables = false := by rcases h with h | h <;> simp [TriggerInputs.disables, h]
  have h2 := step2_idle x c (.inl hm)
  rw [c.next_ic p hd, h2]
  cases x.gated <;> rfl

/-- Idle holds a channel at rest. -/
theorem Channel.next_idle_rest {x : TriggerInputs} (p : ConflictPolicy) (c : Channel) (hm : x.mode = .idle)
    (h : x.tick = false ∨ x.en = true) (hi : c.es ≠ .init) (hw : c.es ≠ .wait) (ho : c.out = false) :
    c.next p x = c := by
  cases ht : x.tick with
  | false => exact c.next_offCycle p x ht hi
  | true =>
    have he : x.en = true := h.resolve_left (by simp [ht])
    rw [c.next_tick_rest p ht he hi ho hw, step2_idle x c (.inl hm)]
    rfl

/-! ### A write of the Mode register -/

theorem State.triggerInputs_wrTrigMode (s : State) (k : Fin 8) (b : Byte) :
    (s.afterBus (.wrTrigMode k b)).triggerInputs k =
      { s.triggerInputs k with mode := modeOf s.cfg.modes b } := by
  simp [State.afterBus, State.triggerInputs]

theorem State.mode_wrTrigMode (s : State) (k : Fin 8) (b : Byte) :
    (s.afterBus (.wrTrigMode k b)).regs.mode[k] = b := by
  simp [State.afterBus]

/-- Phase W leaves the Mode register of a channel that is not written. -/
theorem State.mode_afterBus (s : State) (k : Fin 8) (i : Instr) (h : ∀ v, i ≠ .wrTrigMode k v) :
    (s.afterBus i).regs.mode[k] = s.regs.mode[k] := by
  cases i with
  | wrTrigMode j v =>
    have hjk : j.val ≠ k.val := fun e => h v (by rw [Fin.ext e])
    simp [State.afterBus, hjk]
  | wrUnmapped a v => simp only [State.afterBus]; split <;> rfl
  | _ => rfl

/-- The cycle of a write of the Mode register of a channel the configuration has: the channel and the Mode
register of the next state. -/
theorem exec_wrTrigMode (s : State) (k : Fin 8) (b : Byte) (hk : k.val < s.cfg.nTrig) :
    ∃ t, exec (.wrTrigMode k b) s = .next t ∧ t.cfg = s.cfg
      ∧ t.dv = s.dv.next s.cd.strobe s.regs.clockDivider
      ∧ t.ch[k] = s.ch[k].next s.cfg.policy { s.triggerInputs k with mode := modeOf s.cfg.modes b }
      ∧ t.regs.mode[k] = modeNext s.cfg.modes s.dv.strobe b s.ch[k].out :=
  ⟨_, exec_eq _ s (decide_eq_true hk), rfl, rfl,
    (s.afterBus_cycle_ch _ _ hk).trans (by rw [s.triggerInputs_wrTrigMode]),
    (s.afterBus_cycle_mode _ _ hk).trans (by rw [s.mode_wrTrigMode])⟩

/-- Settles O33: no step and no branch of the controller tells the byte from Idle but the one that stops
Idle. -/
theorem unmappedModeActsAsIdle : Obligations.UnmappedModeActsAsIdle := by
  intro s k b hk hdist hb
  obtain ⟨t, ht, -, -, htch, htmode⟩ := exec_wrTrigMode s k b hk
  obtain ⟨u, hu, -, -, huch, -⟩ := exec_wrTrigMode s k s.cfg.modes.idle hk
  rw [modeOf_unmapped hb, Channel.next_unmapped] at htch
  rw [modeOf_idle hdist] at huch
  refine ⟨t, u, ht, hu, htch.trans huch.symm, ?_, fun h => ⟨?_, fun hi hw ho => ?_⟩, ?_⟩
  · rw [htch]; exact Channel.next_idle_es _ _ rfl
  · rw [htch]; exact Channel.next_idle_ic _ _ rfl h
  · rw [htch]; exact Channel.next_idle_rest _ _ rfl h hi hw ho
  · simp only [List.mem_cons, List.not_mem_nil, or_false, not_or] at hb
    obtain ⟨-, hidle, -, hone, -⟩ := hb
    exact htmode.trans (modeNext_of_ne hone hidle _ _)

/-- Settles O48: by the controller's branch off the wall tick, in the cycle of the write or in the one
after, which the Divider's force-low keeps free of a tick. -/
theorem idleIsTransientWhileTheOutputIsLow : Obligations.IdleIsTransientWhileTheOutputIsLow := by
  intro s k hk hdist ho
  obtain ⟨t, ht, hcfg, hdv, -, hmode⟩ := exec_wrTrigMode s k s.cfg.modes.idle hk
  refine ⟨t, ht, fun hs => ?_, fun hs => ?_⟩
  · rw [hmode, hs, modeNext_offTick, if_pos ⟨rfl, ho⟩]
  · have hidle : t.regs.mode[k] = s.cfg.modes.idle := by
      rw [hmode, hs, modeNext_tick, if_neg fun h => Bool.eq_false_iff.mp ho h.2]
    have hnoTick : t.dv.strobe = false := hdv ▸ s.dv.next_afterTick _ _ hs
    refine ⟨hidle, hnoTick, fun i hwf hne htout => ⟨_, exec_eq i t (hcfg ▸ hwf), ?_⟩⟩
    rw [t.afterBus_cycle_mode i _ (hcfg ▸ hk), t.mode_afterBus k i hne, hidle, hcfg, hnoTick,
      modeNext_offTick, if_pos ⟨rfl, htout⟩]

end Sys2Proof.Machine

/-! PROOF. The address map by ranges and by count (20_memory.md section 1, 10_state.md section 1), and the
checks at configuration time (60_exceptions.md section 1). -/

namespace Sys2Proof

/-! ### The map by ranges -/

/-- The ranges of the fixed map's addresses (20_memory.md section 1). -/
theorem Config.fixedRegAt_range {cfg : Config} {a : Byte} {r : Reg} (h : cfg.fixedRegAt a = some r) :
    a.toNat ≤ 0x07 ∨ a.toNat = 0x0A ∨ a.toNat = 0x0B ∨ a.toNat = 0x0C ∨ a.toNat = 0x14 ∨ a.toNat = 0x15
    ∨ (0x20 ≤ a.toNat ∧ a.toNat ≤ 0x2F) ∨ a.toNat = 0x3C
    ∨ (0x40 ≤ a.toNat ∧ a.toNat < 0x80 ∧ (a.toNat - 0x40) / 8 < cfg.nTrig ∧ (a.toNat - 0x40) % 8 ≤ 3) := by
  obtain ⟨ha, hp, hr⟩ := cfg.fixedRegAt_some a r h
  cases r with
  | resetMask => exact absurd rfl hr
  | _ =>
    have hn := congrArg BitVec.toNat (Option.some.inj ha)
    simp [Reg.present] at hn hp
    omega

/-- The value of a chain of conditions, one link at a time. -/
theorem eq_ite_of {α : Type} {P : Prop} [Decidable P] {v a b : α} (ht : P → v = a) (hf : ¬ P → v = b) :
    v = if P then a else b := by
  split
  · exact ht ‹_›
  · exact hf ‹_›

/-- A register of the fixed map is found at the address with its number. -/
theorem Config.regAt_of_toNat {cfg : Config} {r : Reg} {a b : Byte} (hb : r.addr cfg = some b)
    (hn : b.toNat = a.toNat) (hp : r.present cfg = true) (hr : r ≠ .resetMask) :
    cfg.regAt a = some r :=
  cfg.regAt_addr r a hp hr (hb.trans (congrArg some (BitVec.eq_of_toNat_eq hn)))

/-- Settles O5: in each range the register stands at its own address, and outside them the fixed map has
none. -/
theorem addressMapFollowsTheRanges : Obligations.AddressMapFollowsTheRanges := by
  intro cfg a
  have hk (h : (a.toNat - 0x40) / 8 < cfg.nTrig) :
      (Reg.mode (Fin.ofNat 8 ((a.toNat - 0x40) / 8))).present cfg = true :=
    decide_eq_true (Nat.lt_of_le_of_lt (Nat.mod_le _ _) h)
  refine eq_ite_of (fun h => Config.regAt_of_toNat rfl (by simp; omega) rfl Reg.noConfusion) fun _ => ?_
  iterate 7
    refine eq_ite_of (fun h => Config.regAt_of_toNat rfl h.symm rfl Reg.noConfusion) fun _ => ?_
  iterate 2
    refine eq_ite_of (fun h => Config.regAt_of_toNat rfl (by simp; omega) rfl Reg.noConfusion) fun _ => ?_
  refine eq_ite_of (fun h => Config.regAt_of_toNat rfl h.symm rfl Reg.noConfusion) fun _ => ?_
  iterate 4
    refine eq_ite_of (fun h => Config.regAt_of_toNat rfl (by simp; omega) (hk h.2.2.1) Reg.noConfusion)
      fun _ => ?_
  have hnone : cfg.fixedRegAt a = none := by
    refine Option.eq_none_iff_forall_ne_some.mpr fun r h => ?_
    have := Config.fixedRegAt_range h
    omega
  exact cfg.regAt_of_unmapped a hnone

/-! ### Every mapped address is requested once -/

/-- The registers that `create` is called for are those the configuration has. -/
theorem Config.mem_registers {cfg : Config} {r : Reg} : r ∈ cfg.registers ↔ r.present cfg = true := by
  cases r <;> simp [Config.registers, Reg.present]

theorem Config.mem_requests {cfg : Config} {r : Reg} {a : Byte} :
    (r, a) ∈ cfg.requests ↔ r.present cfg = true ∧ r.addr cfg = some a := by
  simp only [Config.requests, List.mem_filterMap, Config.mem_registers, Option.map_eq_some_iff,
    Prod.mk.injEq]
  constructor
  · rintro ⟨q, hq, b, hb, rfl, rfl⟩; exact ⟨hq, hb⟩
  · rintro ⟨hp, ha⟩; exact ⟨r, hp, a, ha, rfl, rfl⟩

/-- An address is mapped exactly when some register requests it. -/
theorem Config.regAt_isSome_iff {cfg : Config} {a : Byte} :
    (cfg.regAt a).isSome = true ↔ a ∈ cfg.requests.map Prod.snd := by
  rw [List.mem_map]
  constructor
  · intro h
    obtain ⟨r, hr⟩ := Option.isSome_iff_exists.mp h
    obtain ⟨ha, hp⟩ := cfg.regAt_some a r hr
    exact ⟨(r, a), Config.mem_requests.mpr ⟨hp, ha⟩, rfl⟩
  · rintro ⟨⟨r, b⟩, hmem, rfl⟩
    obtain ⟨hp, ha⟩ := Config.mem_requests.mp hmem
    by_cases hr : r = .resetMask
    · subst hr
      have hm : cfg.resetMaskAddr = some b := ha
      cases hf : cfg.fixedRegAt b with
      | some q => simp [Config.regAt, hf]
      | none => simp [cfg.regAt_of_unmapped b hf, hm]
    · simp [cfg.regAt_addr r b hp hr ha]

/-- A register that the configuration has requests an address. -/
theorem Reg.addr_isSome {cfg : Config} {r : Reg} (h : r.present cfg = true) : (r.addr cfg).isSome = true := by
  cases r <;> first | rfl | exact h

theorem Config.requests_length (cfg : Config) : cfg.requests.length = cfg.registers.length := by
  rw [Config.requests, List.length_filterMap_eq_countP, List.countP_eq_length]
  intro r hr
  simpa using Reg.addr_isSome (Config.mem_registers.mp hr)

/-- The channels below `n`, for a number of channels that the block can have. -/
theorem channels_length {n : Nat} (h : n ≤ 8) :
    ((List.finRange 8).filter fun k => decide (k.val < n)).length = n := by
  interval_cases n <;> rfl

theorem Config.registers_length {cfg : Config} (h : cfg.nTrig ≤ 8) :
    cfg.registers.length =
      11 + 2 + 16 + 1 + 4 * cfg.nTrig + (if cfg.resetMaskAddr.isSome then 1 else 0) := by
  have hif : (if cfg.resetMaskAddr.isSome then [Reg.resetMask] else []).length =
      if cfg.resetMaskAddr.isSome then 1 else 0 := by split <;> rfl
  simp only [Config.registers, List.length_append, List.length_map, List.length_flatMap, List.length_finRange,
    List.length_cons, List.length_nil, List.map_const', List.sum_replicate, channels_length h, hif,
    smul_eq_mul]
  omega

/-- Where no address is requested twice, there are as many mapped addresses as requests. -/
theorem Config.mapped_length {cfg : Config} (h : (cfg.requests.map Prod.snd).Nodup) :
    ((List.range 256).filter fun n => (cfg.regAt (BitVec.ofNat 8 n)).isSome).length =
      cfg.requests.length := by
  have hinj : Function.Injective (BitVec.toNat : Byte → Nat) := fun _ _ => BitVec.eq_of_toNat_eq
  have hperm : ((List.range 256).filter fun n => (cfg.regAt (BitVec.ofNat 8 n)).isSome).Perm
      ((cfg.requests.map Prod.snd).map BitVec.toNat) := by
    refine (List.perm_ext_iff_of_nodup (List.nodup_range.filter _) (h.map hinj)).mpr fun n => ?_
    rw [List.mem_filter, List.mem_range, Config.regAt_isSome_iff]
    constructor
    · rintro ⟨hn, hmem⟩
      exact List.mem_map.mpr ⟨_, hmem, Nat.mod_eq_of_lt hn⟩
    · intro hn
      obtain ⟨a, hmem, rfl⟩ := List.mem_map.mp hn
      exact ⟨a.isLt, by simpa using hmem⟩
  simpa using hperm.length_eq

/-! ### The map of a list of requests (40_register_file_bus_ops.md R132, 60_exceptions.md R241) -/

theorem buildMap_nodup (done reqs : List (Reg × Byte)) (h : ((done ++ reqs).map Prod.snd).Nodup) :
    buildMap done reqs = .ok (done ++ reqs) := by
  induction reqs generalizing done with
  | nil => simp [buildMap]
  | cons e rest ih =>
    obtain ⟨r, a⟩ := e
    have hfree : ¬ done.any (fun e => e.2 = a) = true := by
      simp only [List.any_eq_true, decide_eq_true_eq, not_exists, not_and]
      rintro e he rfl
      rw [List.map_append, List.nodup_append] at h
      exact h.2.2 e.2 (List.mem_map_of_mem he) e.2 (by simp) rfl
    rw [buildMap, if_neg hfree, ih _ (by simpa using h)]
    simp

theorem buildMap_collision (done reqs : List (Reg × Byte)) (hdone : (done.map Prod.snd).Nodup)
    (h : ¬ ((done ++ reqs).map Prod.snd).Nodup) :
    ∃ a, buildMap done reqs = .error (.duplicateAddress a)
      ∧ 2 ≤ ((done ++ reqs).map Prod.snd).count a := by
  induction reqs generalizing done with
  | nil => exact absurd (by simpa using hdone) h
  | cons e rest ih =>
    obtain ⟨r, a⟩ := e
    by_cases hused : done.any (fun e => e.2 = a) = true
    · refine ⟨a, by rw [buildMap, if_pos hused], ?_⟩
      have hmem : a ∈ done.map Prod.snd := by simpa [List.any_eq_true] using hused
      have := List.one_le_count_iff.mpr hmem
      simp only [List.map_append, List.map_cons, List.count_append, List.count_cons_self]
      omega
    · have hnew : a ∉ done.map Prod.snd := by simpa [List.any_eq_true] using hused
      rw [buildMap, if_neg hused]
      have := ih (done ++ [(r, a)])
        (by simpa [List.nodup_append] using
          ⟨hdone, fun b q hq hb => hnew (by simpa using ⟨q, hb ▸ hq⟩)⟩)
        (by simpa using h)
      simpa using this

/-- Settles O7: from the empty map, by the two lemmas on the requests still to come. -/
theorem mapFailsExactlyOnACollision : Obligations.MapFailsExactlyOnACollision := fun reqs =>
  ⟨buildMap_nodup [] reqs, buildMap_collision [] reqs List.nodup_nil⟩

/-! ### A valid configuration (00_scope.md R8) -/

/-- The check passes only where no address is requested twice. -/
theorem Config.nodup_of_check {cfg : Config} {map : List (Reg × Byte)} (h : cfg.check = .ok map) :
    (cfg.requests.map Prod.snd).Nodup := by
  by_contra hdup
  obtain ⟨a, ha, -⟩ := mapFailsExactlyOnACollision cfg.requests |>.2 hdup
  simp [Config.check, ha] at h

theorem Config.valid_iff {cfg : Config} :
    cfg.valid = true ↔ cfg.constraints = true ∧ ∃ map, cfg.check = .ok map := by
  cases h : cfg.check <;> simp [Config.valid, h]

theorem Config.nTrig_le_of_constraints {cfg : Config} (h : cfg.constraints = true) : cfg.nTrig ≤ 8 := by
  simp only [Config.constraints, Bool.and_eq_true, decide_eq_true_eq] at h
  omega

/-- Settles O6: the mapped addresses are the requested ones, and a valid configuration requests none
twice. -/
theorem mappedRegisterCount : Obligations.MappedRegisterCount := by
  intro cfg hv
  obtain ⟨hc, map, hmap⟩ := Config.valid_iff.mp hv
  rw [Config.mapped_length (Config.nodup_of_check hmap), Config.requests_length,
    Config.registers_length (Config.nTrig_le_of_constraints hc)]

/-! ### The errors of configuration time (60_exceptions.md R241, 00_scope.md R8) -/

/-- The checks in their order, where no address is requested twice. -/
theorem Config.check_of_nodup {cfg : Config} (h : (cfg.requests.map Prod.snd).Nodup) :
    cfg.check = if 32 < cfg.nIn then .error (.selectTooWide cfg.nIn)
      else if (cfg.cameraTable.lookup cfg.productId).isNone then .error (.unknownProductCode cfg.productId)
      else .ok cfg.requests := by
  have hmap := (mapFailsExactlyOnACollision cfg.requests).1 h
  simp only [Config.check, hmap]

/-- An error that the checks answer holds of the configuration. -/
theorem Config.check_error {cfg : Config} {e : ConfigError} (h : cfg.check = .error e) :
    (∃ a, e = .duplicateAddress a ∧ 2 ≤ (cfg.requests.map Prod.snd).count a)
    ∨ (e = .selectTooWide cfg.nIn ∧ 32 < cfg.nIn)
    ∨ (e = .unknownProductCode cfg.productId ∧ cfg.cameraTable.lookup cfg.productId = none) := by
  by_cases hnodup : (cfg.requests.map Prod.snd).Nodup
  · rw [Config.check_of_nodup hnodup] at h
    split_ifs at h with hn hc
    · cases h; exact .inr (.inl ⟨rfl, hn⟩)
    · cases h; exact .inr (.inr ⟨rfl, Option.isNone_iff_eq_none.mp hc⟩)
  · obtain ⟨a, ha, hcount⟩ := (mapFailsExactlyOnACollision cfg.requests).2 hnodup
    simp only [Config.check, ha, Except.error.injEq] at h
    exact .inl ⟨a, h.symm, hcount⟩

theorem build_valid {cfg : Config} (h : cfg.valid = true) :
    Machine.State.build cfg = .ok (Machine.State.resetOf cfg) := by
  obtain ⟨hc, map, hmap⟩ := Config.valid_iff.mp h
  simp [Machine.State.build, hmap, hc]

theorem build_invalid {cfg : Config} (h : cfg.valid = false) :
    ∃ e, Machine.State.build cfg = .error e := by
  cases hcheck : cfg.check with
  | error e => exact ⟨e, by simp [Machine.State.build, hcheck]⟩
  | ok map =>
    have hc : cfg.constraints = false := by simpa [Config.valid, hcheck] using h
    exact ⟨.constraintFails, by simp [Machine.State.build, hcheck, hc]⟩

/-- Two registers of the fixed map have different addresses, whatever channels the configuration has. -/
theorem Reg.addr_injective {cfg : Config} {r q : Reg} {a : Byte} (hr : r ≠ .resetMask)
    (hq : q ≠ .resetMask) (har : r.addr cfg = some a) (haq : q.addr cfg = some a) : r = q := by
  have hat (r : Reg) (hr : r ≠ .resetMask) (ha : r.addr cfg = some a) :
      ({ cfg with nTrig := 8 } : Config).fixedRegAt a = some r := by
    refine Config.fixedRegAt_addr _ r a ?_ hr (by cases r <;> exact ha)
    cases r <;> first | rfl | exact decide_eq_true (Fin.isLt _) | exact absurd rfl hr
  exact Option.some.inj ((hat r hr har).symm.trans (hat q hq haq))

/-- The registers of a configuration with everything present are distinct. -/
theorem all_registers_nodup :
    ({ Config.vectors with nTrig := 8, resetMaskAddr := some 0 } : Config).registers.Nodup := by
  decide

/-- Every configuration creates some of those registers, in their order. -/
theorem Config.registers_nodup (cfg : Config) : cfg.registers.Nodup := by
  refine all_registers_nodup.sublist ?_
  unfold Config.registers
  refine .append (.append (.refl _) ?_) ?_
  · exact List.Sublist.flatMap (List.filter_sublist.trans (by simp)) _
  · split <;> simp

/-- The fixed map requests no address twice. -/
theorem Config.requests_nodup {cfg : Config} (h : cfg.resetMaskAddr = none) :
    (cfg.requests.map Prod.snd).Nodup := by
  have hsnd : cfg.requests.map Prod.snd = cfg.registers.filterMap (Reg.addr cfg) := by
    rw [Config.requests, List.map_filterMap]
    congr 1
    funext r
    cases r.addr cfg <;> rfl
  rw [hsnd]
  refine cfg.registers_nodup.filterMap fun r q a hr hq => ?_
  have hne {r : Reg} (hr : a ∈ r.addr cfg) : r ≠ .resetMask := by
    rintro rfl
    simp [Reg.addr, h] at hr
  exact Reg.addr_injective (hne hr) (hne hq) hr hq

/-- With the spec's input vector and the other constraints of the parameters, only the camera count is
left to the constraints. -/
theorem Config.constraints_of_spec {cfg : Config} (h1 : 1 ≤ cfg.nTrig) (h8 : cfg.nTrig ≤ 8)
    (hp : 1 ≤ cfg.clkdivMaxPeriod) (hd : cfg.modes.distinct = true) (hm : cfg.resetMaskAddr = none)
    (hx : cfg.xbarInputs = Config.specInputs cfg.nTrig) :
    cfg.nIn ≤ 32
    ∧ cfg.constraints = decide (cfg.cameraTable.lookup cfg.productId = some cfg.cameraCount) := by
  have hn : cfg.nIn ≤ 32 := by
    rw [Config.nIn, hx, Config.specInputs, channels_length h8]; omega
  have hall : (cfg.xbarInputs.all fun k => decide (k.val < cfg.nTrig)) = true := by
    simp [hx, Config.specInputs]
  exact ⟨hn, by simp [Config.constraints, h1, h8, hp, hd, hn, hm, hall]⟩

/-- Settles O8: the build is the checks in their order and then the constraints. -/
theorem configurationChecks : Obligations.ConfigurationChecks := by
  refine fun cfg => ⟨⟨build_valid, build_invalid⟩, fun h1 h8 hp hd hm hx => ?_, fun e he => ?_⟩
  · obtain ⟨hn, hc⟩ := Config.constraints_of_spec h1 h8 hp hd hm hx
    rw [Machine.State.build, Config.check_of_nodup (Config.requests_nodup hm), if_neg (by omega), hc]
    cases hl : cfg.cameraTable.lookup cfg.productId with
    | none => rfl
    | some n => simp
  · unfold Machine.State.build at he
    split at he
    · rename_i e' hcheck
      cases he
      rcases Config.check_error hcheck with ⟨a, rfl, h⟩ | ⟨rfl, h⟩ | ⟨rfl, h⟩
      · exact h
      · exact ⟨rfl, h⟩
      · exact ⟨rfl, h⟩
    · split_ifs at he with hc
      cases he
      exact Bool.eq_false_iff.mpr hc

end Sys2Proof

/-! PROOF. The bus operations row by row (40_register_file_bus_ops.md sections 2 and 3) and the register
file by address after any cycle (45_cycle_composition.md section 2). Phase W is said once by address, for
the word of a cycle; an operation is the word that encodes it. -/

namespace Sys2Proof.Machine

/-! ### An operation by its phase W and its read data -/

/-- An operation that writes nothing and reads `b` reads as `b`. -/
theorem readsAs_of_wellFormed {i : Instr} {s : State} {b : Byte} (hwf : i.wellFormed s.cfg = true)
    (hw : s.afterBus i = s) (hr : s.readResult i = some b) : ReadsAs i s b :=
  readsAs_of_exec (by rw [exec_eq i s hwf, hw, hr])

/-- An operation that leaves `p` in phase W and reads nothing is a NOP cycle of `p`. -/
theorem actsAsNopIn_of_wellFormed {i : Instr} {s p : State} (hwf : i.wellFormed s.cfg = true)
    (hw : s.afterBus i = p) (hr : s.readResult i = none) : ActsAsNopIn i s p :=
  actsAsNopIn_of_exec (by rw [exec_eq i s hwf, hw, hr])

/-- Settles O9: the definition of the step, and the word that `withFetchWord` puts at the head. -/
theorem stepRunsTheDecodedWord : Obligations.StepRunsTheDecodedWord := by
  refine ⟨fun _ => rfl, fun s w hw => ?_⟩
  have h24 : w % 2 ^ 24 = w := Nat.mod_eq_of_lt (Nat.lt_trans hw (by decide))
  rw [State.withFetchWord, h24]
  rfl

/-- Settles O11: each row's register is a constant of the configuration and takes no write. -/
theorem identificationRegistersReadConstantsIgnoreWrites :
    Obligations.IdentificationRegistersReadConstantsIgnoreWrites := fun _ _ _ =>
  ⟨readsAs_of_wellFormed rfl rfl rfl, actsAsNopIn_of_wellFormed rfl rfl rfl,
    readsAs_of_wellFormed rfl rfl rfl, actsAsNopIn_of_wellFormed rfl rfl rfl,
    readsAs_of_wellFormed rfl rfl rfl, actsAsNopIn_of_wellFormed rfl rfl rfl,
    readsAs_of_wellFormed rfl rfl rfl, actsAsNopIn_of_wellFormed rfl rfl rfl,
    readsAs_of_wellFormed rfl rfl rfl, actsAsNopIn_of_wellFormed rfl rfl rfl,
    readsAs_of_wellFormed rfl rfl rfl, actsAsNopIn_of_wellFormed rfl rfl rfl⟩

/-- Settles O12: the three rows are well formed in every configuration. -/
theorem controlRegistersReadAndWrite : Obligations.ControlRegistersReadAndWrite := fun _ _ =>
  ⟨readsAs_of_wellFormed rfl rfl rfl, actsAsNopIn_of_wellFormed rfl rfl rfl,
    readsAs_of_wellFormed rfl rfl rfl, actsAsNopIn_of_wellFormed rfl rfl rfl,
    readsAs_of_wellFormed rfl rfl rfl, actsAsNopIn_of_wellFormed rfl rfl rfl⟩

/-- Settles O13: the rows of the cells are well formed in every configuration. -/
theorem crossbarRegistersReadAndWrite : Obligations.CrossbarRegistersReadAndWrite := fun _ _ _ =>
  ⟨readsAs_of_wellFormed rfl rfl rfl, actsAsNopIn_of_wellFormed rfl rfl rfl,
    readsAs_of_wellFormed rfl rfl rfl, actsAsNopIn_of_wellFormed rfl rfl rfl⟩

/-- Settles O14: the rows of a channel that the configuration has are well formed. -/
theorem channelRegistersReadAndWrite : Obligations.ChannelRegistersReadAndWrite := fun _ _ _ hk =>
  have hwf := decide_eq_true hk
  ⟨readsAs_of_wellFormed hwf rfl rfl, actsAsNopIn_of_wellFormed hwf rfl rfl,
    readsAs_of_wellFormed hwf rfl rfl, actsAsNopIn_of_wellFormed hwf rfl rfl,
    readsAs_of_wellFormed hwf rfl rfl, actsAsNopIn_of_wellFormed hwf rfl rfl,
    readsAs_of_wellFormed hwf rfl rfl, actsAsNopIn_of_wellFormed hwf rfl rfl⟩

/-- Settles O15: by whether the reset mask stands at the address. -/
theorem fallbackRowsReadAndWrite : Obligations.FallbackRowsReadAndWrite := by
  intro s a v hf
  have hwf : (Instr.rdUnmapped a).wellFormed s.cfg = true := Option.isNone_iff_eq_none.mpr hf
  have hwf' : (Instr.wrUnmapped a v).wellFormed s.cfg = true := hwf
  constructor <;> intro hm
  · exact ⟨readsAs_of_wellFormed hwf rfl (by rw [State.readResult, if_neg hm]; rfl),
      actsAsNopIn_of_wellFormed hwf' (if_neg hm) rfl⟩
  · exact ⟨readsAs_of_wellFormed hwf rfl (by rw [State.readResult, if_pos hm]),
      actsAsNopIn_of_wellFormed hwf' (if_pos hm) rfl⟩

/-! ### Unmapped addresses (R113) -/

/-- An address is unmapped when the fixed map has nothing there and the reset mask is elsewhere. -/
theorem regAt_none_iff {cfg : Config} {a : Byte} :
    cfg.regAt a = none ↔ cfg.fixedRegAt a = none ∧ cfg.resetMaskAddr ≠ some a := by
  cases hf : cfg.fixedRegAt a with
  | some r => simp [Config.regAt, hf]
  | none => simp [cfg.regAt_of_unmapped a hf]

/-- Settles O18: the word decodes to a fallback row, and no reset mask stands at its address. -/
theorem unmappedAddressReadsADrawAndDiscardsWrites :
    Obligations.UnmappedAddressReadsADrawAndDiscardsWrites := by
  intro s w hv hnone
  obtain ⟨hf, hm⟩ := regAt_none_iff.mp hnone
  obtain ⟨hread, hwrite⟩ := (fallbackRowsReadAndWrite s w.addr w.data hf).1 hm
  rw [decode_unmapped s.cfg w hv hf]
  exact ⟨fun hr => by rwa [hr], fun hr => by rwa [hr]⟩

/-! ### Phase W by address (R112, R113, R114) -/

/-- A write of an unmapped address is discarded. -/
theorem State.afterBus_write_unmapped (s : State) (w : BusWord) (hv : w.valid = true) (hw : w.rw = true)
    (hnone : s.cfg.regAt w.addr = none) : s.afterBus (decode s.cfg w) = s := by
  obtain ⟨hf, hm⟩ := regAt_none_iff.mp hnone
  rw [decode_unmapped s.cfg w hv hf, hw, if_pos rfl]
  exact if_neg hm

/-- The byte at every address after phase W: the word's data where it writes an RW register there, and the
byte held elsewhere. -/
theorem State.x_afterBus_word (s : State) (w : BusWord) (a : Byte) :
    (s.afterBus (decode s.cfg w)).x a =
      if w.valid = true ∧ w.rw = true ∧ (s.cfg.regAt w.addr).any (fun r => r.access = .rw) = true
          ∧ a = w.addr
      then some w.data else s.x a := by
  cases hv : w.valid with
  | false => simp [decode_invalid s.cfg w hv, State.afterBus]
  | true =>
    cases hw : w.rw with
    | false => simp [s.afterBus_read w hv hw]
    | true =>
      cases hr : s.cfg.regAt w.addr with
      | none => simp [s.afterBus_write_unmapped w hv hw hr]
      | some r =>
        rw [s.afterBus_write w r hv hw hr]
        cases hacc : r.access with
        | ro => simp [RegFile.write_ro _ _ _ hacc, hacc]
        | rw =>
          by_cases ha : a = w.addr
          · subst ha; simp [s.x_write_self w.addr w.data r hr hacc, hacc]
          · simp [s.x_write_other w.addr a w.data r hr ha, ha]

/-- Phases C and S change no byte but the Mode registers' of the channels the configuration has (R223). -/
theorem State.x_cycle (s : State) (r : Option Byte) (a : Byte)
    (h : ∀ k : Fin 8, k.val < s.cfg.nTrig → (Reg.mode k).addr s.cfg ≠ some a) :
    (s.cycle r).x a = s.x a := by
  refine Option.map_congr fun q hq => ?_
  obtain ⟨ha, hp⟩ := s.cfg.regAt_some a q hq
  cases q with
  | mode k => exact absurd ha (h k (of_decide_eq_true hp))
  | _ => rfl

/-! ### Phase W of an operation by address -/

theorem encode_valid {i : Instr} (h : i ≠ .nop) : (encode i).valid = true := by
  rw [encode_eq i h, busWord_valid]

theorem encode_addr {i : Instr} (h : i ≠ .nop) : (encode i).addr = i.addr := by
  rw [encode_eq i h, busWord_addr]

theorem encode_rw {i : Instr} (h : i ≠ .nop) : (encode i).rw = i.writeData.isSome := by
  rw [encode_eq i h, busWord_rw]

theorem encode_data {i : Instr} (h : i ≠ .nop) : (encode i).data = i.writeData.getD 0 := by
  rw [encode_eq i h, busWord_data]

/-- The byte at every address after phase W of a well-formed operation. -/
theorem State.x_afterBus (s : State) (i : Instr) (a : Byte) (hwf : i.wellFormed s.cfg = true) :
    (s.afterBus i).x a =
      if i.writeData.isSome = true ∧ i.addr = a
          ∧ (s.cfg.regAt a).any (fun r => r.access = .rw) = true
      then i.writeData else s.x a := by
  by_cases hnop : i = .nop
  · subst hnop; rfl
  · have h := s.x_afterBus_word (encode i) a
    rw [decode_encode s.cfg i hwf, encode_valid hnop, encode_rw hnop, encode_addr hnop,
      encode_data hnop] at h
    rw [h]
    by_cases ha : a = i.addr
    · subst ha
      cases hd : i.writeData <;> simp
    · rw [if_neg fun hc => ha hc.2.2.2, if_neg fun hc => ha hc.2.1.symm]

/-- Settles O21: phase W by address, and a cycle that rewrites Mode registers alone. -/
theorem onlyBusWritesChangeOtherRegisters : Obligations.OnlyBusWritesChangeOtherRegisters := by
  intro i s hwf
  refine ⟨_, exec_eq i s hwf, by rw [State.cycle_cfg, State.afterBus_cfg], fun a ha => ?_⟩
  rw [State.x_cycle _ _ a (by simpa using ha), s.x_afterBus i a hwf]

/-! ### The cycle with no operation (R130) -/

/-- Settles O20: the fields of the cycle, each by its equation. -/
theorem nopLeavesTheRegisterFile : Obligations.NopLeavesTheRegisterFile := by
  intro s w hv
  refine ⟨decode_invalid s.cfg w hv, s.cycle none, rfl, rfl, fun i => ?_, fun hm => ?_, fun a hm => ?_,
    rfl, rfl, rfl, fun k hk => ?_, fun i => ?_, rfl, rfl, rfl⟩
  · exact ⟨s.cycle_xa none i, s.cycle_xb none i⟩
  · simp [State.rst, hm]
  · exact ⟨Vector.ofFn fun i => s.regs.resetMask.getLsbD i.val, by simp [State.rst, hm], fun i => by simp⟩
  · simp [hk]
  · exact ⟨s.cycle_latA none i, s.cycle_latB none i⟩

/-! ### The ResetController (R208) -/

/-- An operation that is no write of its address leaves the mask register. -/
theorem State.resetMask_afterBus_of_ne (s : State) (i : Instr) {a : Byte} (hm : s.cfg.resetMaskAddr = some a)
    (h : ∀ v, i ≠ .wrUnmapped a v) : (s.afterBus i).regs.resetMask = s.regs.resetMask := by
  cases i with
  | wrUnmapped b v =>
    have hb : s.cfg.resetMaskAddr ≠ some b := by
      rintro hb
      obtain rfl : a = b := Option.some.inj (hm.symm.trans hb)
      exact h v rfl
    simp [State.afterBus, hb]
  | _ => rfl

/-- Settles O53: the lines are formed from the register file after phase W, which the cycle keeps. -/
theorem resetLinesFollowTheMask : Obligations.ResetLinesFollowTheMask := by
  intro i s hwf
  refine ⟨_, exec_eq i s hwf, fun hm => ?_, fun a hm => ⟨?_, fun h => ?_, ?_⟩⟩
  · simp [State.rst, hm]
  · rintro v rfl
    simp [State.afterBus, hm]
  · exact s.resetMask_afterBus_of_ne i hm h
  · exact ⟨Vector.ofFn fun n => (s.afterBus i).regs.resetMask.getLsbD n.val,
      by simp [State.rst, hm], fun n => by simp⟩

/-! ### Slots without hardware (assumption 8) -/

/-- No well-formed operation writes a register of a channel at or above `N_TRIG`. -/
theorem State.afterBus_absent (s : State) (i : Instr) (k : Fin 8) (hwf : i.wellFormed s.cfg = true)
    (hk : s.cfg.nTrig ≤ k.val) :
    (s.afterBus i).regs.mode[k] = s.regs.mode[k]
    ∧ (s.afterBus i).regs.interval[k] = s.regs.interval[k]
    ∧ (s.afterBus i).regs.duration[k] = s.regs.duration[k]
    ∧ (s.afterBus i).regs.phase[k] = s.regs.phase[k] := by
  cases i with
  | wrTrigMode j v | wrTrigInterval j v | wrTrigDuration j v | wrTrigPhase j v =>
    have hj : j.val < s.cfg.nTrig := of_decide_eq_true hwf
    have hne : j.val ≠ k.val := by omega
    simp [State.afterBus, hne]
  | wrUnmapped a v => simp only [State.afterBus]; split <;> exact ⟨rfl, rfl, rfl, rfl⟩
  | _ => exact ⟨rfl, rfl, rfl, rfl⟩

/-- Settles O45: phase W does not write the slot's registers, and the cycle keeps the slot. -/
theorem absentChannelsNeverChange : Obligations.AbsentChannelsNeverChange := by
  intro i s k hwf hk
  obtain ⟨hmode, hinterval, hduration, hphase⟩ := s.afterBus_absent i k hwf hk
  refine ⟨_, exec_eq i s hwf, ?_, ?_, hinterval, hduration, hphase⟩
  · simp [Nat.not_lt.mpr hk]
  · rw [← hmode]; simp [Nat.not_lt.mpr hk]

end Sys2Proof.Machine

/-! PROOF. Runs (00_scope.md R9, 70_reset_and_hazards.md): a step is a function of the state that never
stops, so a run is its iteration; and two cycles that write and read one address. -/

namespace Sys2Proof.Machine

/-! ### The next state -/

/-- The state after one core cycle: phase W of the decoded word, then phases C and S. -/
def State.nextCycle (s : State) : State :=
  (s.takeWord.afterBus (decode s.cfg s.busNow)).cycle (s.takeWord.readResult (decode s.cfg s.busNow))

theorem step_eq_nextCycle (s : State) : step s = .next s.nextCycle := step_eq s

/-- A run of `n` cycles is the `n`-fold next state. -/
theorem runCycles_eq (n : Nat) (s : State) : runCycles n s = .next (State.nextCycle^[n] s) := by
  induction n generalizing s with
  | zero => rfl
  | succ n ih => rw [runCycles_succ]; exact ih s.nextCycle

@[simp] theorem State.nextCycle_cfg (s : State) : s.nextCycle.cfg = s.cfg := by
  simp [State.nextCycle]

@[simp] theorem State.nextCycle_busIn (s : State) : s.nextCycle.busIn = s.busIn.tail := by
  simp [State.nextCycle]

@[simp] theorem State.nextCycle_now (s : State) : s.nextCycle.now = s.now + 1 := by
  simp [State.nextCycle]

@[simp] theorem State.nextCycle_cd (s : State) :
    s.nextCycle.cd = s.cd.next s.cfg.clkdivMaxPeriod := by
  simp [State.nextCycle]

/-- What holds of the first state and passes from each cycle to the next holds after every run. -/
theorem iterate_nextCycle_induction {P : Nat → State → Prop} {s : State} (h0 : P 0 s)
    (hstep : ∀ n t, P n t → P (n + 1) t.nextCycle) (n : Nat) : P n (State.nextCycle^[n] s) := by
  induction n with
  | zero => exact h0
  | succ n ih => rw [Function.iterate_succ_apply']; exact hstep n _ ih

/-- No run changes the configuration (assumption 1). -/
@[simp] theorem State.iterate_nextCycle_cfg (n : Nat) (s : State) :
    (State.nextCycle^[n] s).cfg = s.cfg :=
  iterate_nextCycle_induction (P := fun _ t => t.cfg = s.cfg) rfl
    (fun _ t ht => t.nextCycle_cfg.trans ht) n

/-! ### RO registers (10_state.md R22) -/

/-- An RO register is a constant of the configuration: no register file holds it. -/
theorem RegFile.read_ro (cfg : Config) (f g : RegFile) {r : Reg} (h : r.access = .ro) :
    f.read cfg r = g.read cfg r := by
  rcases r.write_ro h with rfl | rfl | rfl | rfl | rfl | ⟨j, rfl⟩ <;> rfl

/-- Settles O22: the address keeps its register, and an RO register its constant, since no cycle changes the
configuration. -/
theorem roRegistersNeverChange : Obligations.RoRegistersNeverChange := by
  intro n s a r hr hro
  have hcfg := State.iterate_nextCycle_cfg n s
  refine ⟨_, runCycles_eq n s, hcfg, ?_⟩
  rw [State.x_of_regAt _ a r (by rwa [hcfg]), State.x_of_regAt s a r hr, hcfg]
  exact congrArg some (RegFile.read_ro _ _ _ hro)

/-! ### A write and then a read of one address (20_memory.md section 6) -/

/-- The next state of a cycle that writes a mapped address. -/
theorem State.nextCycle_write (s : State) (a v : Byte) (r : Reg) (rest : List BusWord)
    (hr : s.cfg.regAt a = some r) (hb : s.busIn = wrWord a v :: rest) :
    s.nextCycle = State.cycle { s with regs := s.regs.write v r, busIn := rest } none := by
  have hnow : s.busNow = wrWord a v := by rw [State.busNow, hb]; rfl
  have haddr : (wrWord a v).addr = a := busWord_addr ..
  have hdata : (wrWord a v).data = v := busWord_data ..
  have hw := s.takeWord.afterBus_write (wrWord a v) r (busWord_valid ..) (busWord_rw ..) (by rwa [haddr])
  have hres := s.takeWord.readResult_write (wrWord a v) (busWord_valid ..) (busWord_rw ..)
  rw [hdata] at hw
  rw [State.takeWord_cfg] at hw hres
  rw [State.nextCycle, hnow, hw, hres, State.takeWord, hb]
  rfl

/-- A cycle that reads a mapped address returns the byte the register holds. -/
theorem State.nextCycle_read_result (s : State) (a : Byte) (r : Reg) (rest : List BusWord)
    (hr : s.cfg.regAt a = some r) (hb : s.busIn = rdWord a :: rest) :
    s.nextCycle.obs.result = some (s.regs.read s.cfg r) := by
  have hnow : s.busNow = rdWord a := by rw [State.busNow, hb]; rfl
  have haddr : (rdWord a).addr = a := busWord_addr ..
  rw [State.nextCycle, hnow, State.cycle_result]
  exact s.takeWord.readResult_read (rdWord a) r (busWord_valid ..) (busWord_rw ..) (by rwa [haddr])

/-- Phases C and S leave every register but the Mode registers as phase W left it (R223). -/
theorem State.read_cycle (s : State) (o : Option Byte) (r : Reg) (h : ∀ k, r ≠ .mode k) :
    (s.cycle o).regs.read s.cfg r = s.regs.read s.cfg r := by
  cases r with
  | mode k => exact absurd rfl (h k)
  | _ => rfl

/-- Settles O25: the second cycle reads what the first one's edge left of the written register. -/
theorem readAfterWriteReturnsTheWrittenByte : Obligations.ReadAfterWriteReturnsTheWrittenByte := by
  intro s a v r rest hr hrw hb
  have h1 := s.nextCycle_write a v r (rdWord a :: rest) hr hb
  have hread : s.nextCycle.nextCycle.obs.result =
      some (s.nextCycle.regs.read s.cfg r) := by
    have h := s.nextCycle.nextCycle_read_result a r rest (by rwa [State.nextCycle_cfg]) (by simp [hb])
    rwa [State.nextCycle_cfg] at h
  refine ⟨_, runCycles_eq 2 s, fun hne => ?_, ?_⟩
  · refine hread.trans (congrArg some ?_)
    rw [h1]
    exact (State.read_cycle { s with regs := s.regs.write v r, busIn := rdWord a :: rest } none r hne).trans
      (RegFile.read_write_self s.cfg s.regs v r hrw)
  · rintro k rfl
    have hk : k.val < s.cfg.nTrig := of_decide_eq_true (s.cfg.regAt_some a _ hr).2
    refine hread.trans (congrArg some ?_)
    rw [h1]
    simp [RegFile.read, RegFile.write, hk]

/-! ### The state in cycle 0 (10_state.md R38) -/

/-- Every RW register but the period holds its default in cycle 0. -/
theorem RegFile.read_resetOf (cfg : Config) {r : Reg} {a : Byte} (hrw : r.access = .rw)
    (hr : r ≠ .clockDivider) (ha : r.addr cfg = some a) :
    (RegFile.resetOf cfg).read cfg r = cfg.defaultAt a := by
  cases r with
  | clockDivider => exact absurd rfl hr
  | productId j => cases hrw
  | hwRevision | gwRevision | cameraCount | gpioCount | triggerCount => cases hrw
  | resetMask =>
    have hm : cfg.resetMaskAddr = some a := ha
    simp [RegFile.read, RegFile.resetOf, Reg.addr, hm]
  | _ => cases ha; simp [RegFile.read, RegFile.resetOf, Reg.addr]

/-- Settles O57: the constants by their addresses, the defaults by the register at the address. -/
theorem resetStateOfEveryConfiguration : Obligations.ResetStateOfEveryConfiguration := by
  intro cfg
  have hx {a : Byte} (r : Reg) (ha : r.addr cfg = some a) (hp : r.present cfg = true)
      (hr : r ≠ .resetMask) :
      (State.resetOf cfg).x a = some ((RegFile.resetOf cfg).read cfg r) :=
    (State.resetOf cfg).x_of_regAt a r (cfg.regAt_addr r a hp hr ha)
  refine ⟨fun j => hx (.productId j) (by simp [Reg.addr]) rfl Reg.noConfusion,
    hx .hwRevision rfl rfl Reg.noConfusion, hx .gwRevision rfl rfl Reg.noConfusion,
    hx .cameraCount rfl rfl Reg.noConfusion, hx .gpioCount rfl rfl Reg.noConfusion,
    hx .triggerCount rfl rfl Reg.noConfusion, hx .clockDivider rfl rfl Reg.noConfusion,
    fun a r hr hrw h14 => ?_, fun a hnone => ?_, rfl, rfl, fun k => ?_, fun i => ?_, rfl⟩
  · have ha := (cfg.regAt_some a r hr).1
    have hne : r ≠ .clockDivider := by
      rintro rfl
      exact h14 (Option.some.inj ha).symm
    rw [(State.resetOf cfg).x_of_regAt a r hr]
    exact congrArg some (RegFile.read_resetOf cfg hrw hne ha)
  · exact congrArg (Option.map _) hnone
  · simp [State.resetOf, Channel.reset]
  · simp [State.resetOf]

/-! ### Registers that control nothing -/

/-- Phase W of an operation that does not write Power Control passes that byte on. -/
theorem State.afterBus_powerControl (s : State) (i : Instr) (v : Byte) (h : ∀ u, i ≠ .wrPowerControl u) :
    State.afterBus { s with regs := { s.regs with powerControl := v } } i =
      { s.afterBus i with regs := { (s.afterBus i).regs with powerControl := v } } := by
  cases i with
  | wrPowerControl u => exact absurd rfl (h u)
  | wrUnmapped a u => simp only [State.afterBus]; split <;> rfl
  | _ => rfl

theorem State.readResult_powerControl (s : State) (i : Instr) (v : Byte) (h : i ≠ .rdPowerControl) :
    State.readResult { s with regs := { s.regs with powerControl := v } } i = s.readResult i := by
  cases i with
  | rdPowerControl => exact absurd rfl h
  | _ => rfl

/-- No part of a cycle reads Power Control. -/
theorem State.cycle_storesPowerControl (s : State) (v : Byte) (o : Option Byte) :
    State.cycle { s with regs := { s.regs with powerControl := v } } o =
      { s.cycle o with regs := { (s.cycle o).regs with powerControl := v } } := rfl

/-- Settles O23: the byte passes through phase W and through the cycle, and no part of either reads it. -/
theorem powerControlIsStorageOnly : Obligations.PowerControlIsStorageOnly := by
  refine ⟨fun s v => ?_, fun i s v hwf hrd hwr => ⟨_, exec_eq i s hwf, ?_⟩⟩
  · obtain ⟨-, -, hread, hwrite, -, -⟩ := controlRegistersReadAndWrite s v
    exact ⟨hread, hwrite⟩
  · refine (exec_eq i _ (by exact hwf)).trans ?_
    rw [s.afterBus_powerControl i v hwr, s.readResult_powerControl i v hrd,
      State.cycle_storesPowerControl]

/-- A channel below `N_TRIG` reads its own enable bit alone (R161). -/
theorem State.triggerInputs_enables (s : State) (e : Byte) (k : Fin 8)
    (h : e.getLsbD k.val = s.regs.triggerEnables.getLsbD k.val) :
    State.triggerInputs { s with regs := { s.regs with triggerEnables := e } } k = s.triggerInputs k := by
  simp only [State.triggerInputs, h]

/-- The cycle sees of Trigger Enables the bits below `N_TRIG` alone. -/
theorem State.cycle_enables (s : State) (e : Byte) (o : Option Byte)
    (h : ∀ k : Nat, k < s.cfg.nTrig → e.getLsbD k = s.regs.triggerEnables.getLsbD k) :
    State.cycle { s with regs := { s.regs with triggerEnables := e } } o =
      { s.cycle o with regs := { (s.cycle o).regs with triggerEnables := e } } := by
  have hch : (State.cycle { s with regs := { s.regs with triggerEnables := e } } o).ch = (s.cycle o).ch := by
    refine Vector.ext fun n hn => ?_
    have hk := State.cycle_ch s o ⟨n, hn⟩
    have hk' := State.cycle_ch { s with regs := { s.regs with triggerEnables := e } } o ⟨n, hn⟩
    rw [hk, hk']
    split_ifs with hlt
    · rw [s.triggerInputs_enables e ⟨n, hn⟩ (h n hlt)]
    · rfl
  unfold State.cycle at hch ⊢
  simp only at hch ⊢
  rw [hch]
  rfl

/-- Phase W of an operation that does not write Trigger Enables passes that byte on. -/
theorem State.afterBus_enables (s : State) (i : Instr) (e : Byte) (h : ∀ u, i ≠ .wrTriggerEnables u) :
    State.afterBus { s with regs := { s.regs with triggerEnables := e } } i =
      { s.afterBus i with regs := { (s.afterBus i).regs with triggerEnables := e } } := by
  cases i with
  | wrTriggerEnables u => exact absurd rfl (h u)
  | wrUnmapped a u => simp only [State.afterBus]; split <;> rfl
  | _ => rfl

theorem State.afterBus_triggerEnables (s : State) (i : Instr) (h : ∀ u, i ≠ .wrTriggerEnables u) :
    (s.afterBus i).regs.triggerEnables = s.regs.triggerEnables := by
  cases i with
  | wrTriggerEnables u => exact absurd rfl (h u)
  | wrUnmapped a u => simp only [State.afterBus]; split <;> rfl
  | _ => rfl

theorem State.readResult_enables (s : State) (i : Instr) (e : Byte) (h : i ≠ .rdTriggerEnables) :
    State.readResult { s with regs := { s.regs with triggerEnables := e } } i = s.readResult i := by
  cases i with
  | rdTriggerEnables => exact absurd rfl h
  | _ => rfl

/-- Settles O24: phase W passes the byte on, and the cycle sees none of the bits that differ. -/
theorem enableBitsAboveTheChannelsAreInert : Obligations.EnableBitsAboveTheChannelsAreInert := by
  intro i s e hwf hrd hwr hbits
  refine ⟨_, exec_eq i s hwf, (exec_eq i _ (by exact hwf)).trans ?_⟩
  rw [s.afterBus_enables i e hwr, s.readResult_enables i e hrd,
    State.cycle_enables _ e _ (by simpa [s.afterBus_triggerEnables i hwr] using hbits)]

end Sys2Proof.Machine

/-! PROOF. The crossbar cells and the Divider under every operation (44_crossbar.md sections 1 to 3,
41_clock_dividers.md section 2), and the whole cycle by address (45_cycle_composition.md section 2). -/

namespace Sys2Proof.Machine

/-! ### The input vector (R205) -/

theorem State.input_eq_some {s : State} {j : Nat} (h : j < s.cfg.nIn) : ∃ v, s.input j = some v :=
  ⟨_, by rw [State.input, List.getElem?_eq_getElem h]; rfl⟩

theorem State.input_eq_none {s : State} {j : Nat} (h : s.cfg.nIn ≤ j) : s.input j = none := by
  rw [State.input, List.getElem?_eq_none h]; rfl

/-- Phase W does not reach the input vector. -/
@[simp] theorem State.input_afterBus (s : State) (i : Instr) (j : Nat) :
    (s.afterBus i).input j = s.input j := by
  rw [State.input, State.afterBus_cfg, State.afterBus_ch]; rfl

/-- The latch step with phase W passed over (R201, R203). -/
@[simp] theorem State.latchNext_afterBus (s : State) (i : Instr) (cell : Nat) (c : Byte) :
    (s.afterBus i).latchNext cell c = s.latchNext cell c := by
  simp only [State.latchNext, State.input_afterBus, State.afterBus_now]

/-- The latched bit is the selected input or the cycle's draw. -/
theorem State.latchNext_eq_getD (s : State) (cell : Nat) (c : Byte) :
    s.latchNext cell c = (s.input (xbarSelect c)).getD (Config.xbarOor s.now cell) := by
  unfold State.latchNext
  cases s.input (xbarSelect c) <;> rfl

/-! ### The cells under every operation -/

/-- In every cycle each cell takes its latch step with its post-write control byte, and its output is the
output function of that byte and its current latched bit. -/
theorem exec_cells (i : Instr) (s : State) (j : Fin 8) (hwf : i.wellFormed s.cfg = true) :
    ∃ t, exec i s = .next t
      ∧ t.latA[j] = s.latchNext j.val (s.afterBus i).regs.xbarA[j]
      ∧ t.latB[j] = s.latchNext (8 + j.val) (s.afterBus i).regs.xbarB[j]
      ∧ t.obs.xa[j] = xbarOut (s.afterBus i).regs.xbarA[j] s.latA[j]
      ∧ t.obs.xb[j] = xbarOut (s.afterBus i).regs.xbarB[j] s.latB[j] := by
  refine ⟨_, exec_eq i s hwf, ?_, ?_, (State.cycle_xa _ _ j).trans (s.xa_afterBus i j),
    (State.cycle_xb _ _ j).trans (s.xb_afterBus i j)⟩
  · rw [← s.latchNext_afterBus i]; exact State.cycle_latA _ _ j
  · rw [← s.latchNext_afterBus i]; exact State.cycle_latB _ _ j

/-- Settles O49: the latch step by its two branches. -/
theorem crossbarLatchStep : Obligations.CrossbarLatchStep := by
  intro i s j hwf
  obtain ⟨t, hexec, hA, hB, -, -⟩ := exec_cells i s j hwf
  exact ⟨t, hexec, fun v hv => hA.trans (s.latchNext_inRange _ _ v hv),
    fun v hv => hB.trans (s.latchNext_inRange _ _ v hv),
    fun h => hA.trans (s.latchNext_outOfRange _ _ (State.input_eq_none h)),
    fun h => hB.trans (s.latchNext_outOfRange _ _ (State.input_eq_none h)),
    State.input_eq_some, State.input_eq_some⟩

/-! ### A cell whose control byte is not written -/

theorem State.xbarA_afterBus (s : State) (i : Instr) (j : Fin 8) (h : ∀ b, i ≠ .wrXbarA j b) :
    (s.afterBus i).regs.xbarA[j] = s.regs.xbarA[j] := by
  cases i with
  | wrXbarA l v =>
    have hne : l.val ≠ j.val := fun e => h v (by rw [Fin.ext e])
    simp [State.afterBus, hne]
  | wrUnmapped a v => simp only [State.afterBus]; split <;> rfl
  | _ => rfl

theorem State.xbarB_afterBus (s : State) (i : Instr) (j : Fin 8) (h : ∀ b, i ≠ .wrXbarB j b) :
    (s.afterBus i).regs.xbarB[j] = s.regs.xbarB[j] := by
  cases i with
  | wrXbarB l v =>
    have hne : l.val ≠ j.val := fun e => h v (by rw [Fin.ext e])
    simp [State.afterBus, hne]
  | wrUnmapped a v => simp only [State.afterBus]; split <;> rfl
  | _ => rfl

/-- A routed output is the latched bit, inverted where the byte says so (R202). -/
theorem xbarOut_routed {c : Byte} (lat : Bool) (h : xbarOe c = true) :
    xbarOut c lat = (lat ^^ xbarInvert c) := by
  cases hinv : xbarInvert c <;> simp [xbarOut, h, hinv]

/-- A static output is the default bit (R202). -/
theorem xbarOut_static {c : Byte} (lat : Bool) (h : xbarOe c = false) : xbarOut c lat = xbarDefault c := by
  simp [xbarOut, h]

/-- Two outputs `o` and `o'` of one control byte in consecutive cycles, the second with what the first cycle
latched: routed, the second is the first cycle's input, and static, both are the default bit. -/
theorem xbarOut_tracks {s : State} {c : Byte} {cell : Nat} {lat lat' o o' : Bool} (ho : o = xbarOut c lat)
    (ho' : o' = xbarOut c lat') (hlat : lat' = s.latchNext cell c) :
    (∀ v, s.input (xbarSelect c) = some v → xbarOe c = true → o' = (v ^^ xbarInvert c))
    ∧ (xbarOe c = false → o = xbarDefault c ∧ o' = xbarDefault c) := by
  refine ⟨fun v hv hoe => ?_, fun hoe => ⟨ho.trans (xbarOut_static _ hoe), ho'.trans (xbarOut_static _ hoe)⟩⟩
  rw [ho', xbarOut_routed _ hoe, hlat, s.latchNext_inRange _ _ v hv]

/-- Settles O51: the byte passes both cycles, the first latches the input that the second puts out. -/
theorem crossbarTracksItsInputOneCycleLate : Obligations.CrossbarTracksItsInputOneCycleLate := by
  intro i₁ i₂ s j hwf₁ hwf₂
  obtain ⟨t, ht, hlatA, hlatB, hxa, hxb⟩ := exec_cells i₁ s j hwf₁
  have hcycle : t = (s.afterBus i₁).cycle (s.readResult i₁) :=
    Host.Outcome.next.inj (ht.symm.trans (exec_eq i₁ s hwf₁))
  have hcfg : t.cfg = s.cfg := by rw [hcycle, State.cycle_cfg, State.afterBus_cfg]
  obtain ⟨u, hu, -, -, hxa', hxb'⟩ := exec_cells i₂ t j (by rwa [hcfg])
  refine ⟨t, u, ht, hu, fun h₁ h₂ => ?_, fun h₁ h₂ => ?_⟩
  · have hbyte : t.regs.xbarA[j] = s.regs.xbarA[j] := by
      rw [hcycle, State.cycle_xbarA]; exact s.xbarA_afterBus i₁ j h₁
    rw [t.xbarA_afterBus i₂ j h₂, hbyte] at hxa'
    rw [s.xbarA_afterBus i₁ j h₁] at hxa hlatA
    exact xbarOut_tracks hxa hxa' hlatA
  · have hbyte : t.regs.xbarB[j] = s.regs.xbarB[j] := by
      rw [hcycle, State.cycle_xbarB]; exact s.xbarB_afterBus i₁ j h₁
    rw [t.xbarB_afterBus i₂ j h₂, hbyte] at hxb'
    rw [s.xbarB_afterBus i₁ j h₁] at hxb hlatB
    exact xbarOut_tracks hxb hxb' hlatB

/-! ### Independence of the cells -/

/-- Phase W leaves a cell's control bytes alike in two states where they were. -/
theorem State.xbarA_afterBus_congr {s s' : State} (i : Instr) {j : Fin 8}
    (h : s.regs.xbarA[j] = s'.regs.xbarA[j]) :
    (s.afterBus i).regs.xbarA[j] = (s'.afterBus i).regs.xbarA[j] := by
  cases i with
  | wrXbarA l v => exact bank_set_agrees h l v
  | _ =>
    rw [s.xbarA_afterBus _ j (fun _ => Instr.noConfusion),
      s'.xbarA_afterBus _ j (fun _ => Instr.noConfusion), h]

theorem State.xbarB_afterBus_congr {s s' : State} (i : Instr) {j : Fin 8}
    (h : s.regs.xbarB[j] = s'.regs.xbarB[j]) :
    (s.afterBus i).regs.xbarB[j] = (s'.afterBus i).regs.xbarB[j] := by
  cases i with
  | wrXbarB l v => exact bank_set_agrees h l v
  | _ =>
    rw [s.xbarB_afterBus _ j (fun _ => Instr.noConfusion),
      s'.xbarB_afterBus _ j (fun _ => Instr.noConfusion), h]

/-- The latch step reads the cycle number and the input vector of the state alone. -/
theorem State.latchNext_congr {s s' : State} (hnow : s.now = s'.now) (hin : ∀ n, s.input n = s'.input n)
    (cell : Nat) (c : Byte) : s.latchNext cell c = s'.latchNext cell c := by
  simp only [State.latchNext, hnow, hin]

/-- Settles O52: the cell's own byte and latch, the input vector and the cycle number are all it reads. -/
theorem crossbarCellsAreIndependent : Obligations.CrossbarCellsAreIndependent := by
  intro i s s' j hwf hcfg hnow hin
  obtain ⟨t, ht, hA, hB, hxa, hxb⟩ := exec_cells i s j hwf
  obtain ⟨t', ht', hA', hB', hxa', hxb'⟩ := exec_cells i s' j (hcfg ▸ hwf)
  refine ⟨t, t', ht, ht', fun h => ?_, fun h => ?_, fun h hl => ?_, fun h hl => ?_⟩
  · rw [hA, hA', State.xbarA_afterBus_congr i h, State.latchNext_congr hnow hin]
  · rw [hB, hB', State.xbarB_afterBus_congr i h, State.latchNext_congr hnow hin]
  · rw [hxa, hxa', State.xbarA_afterBus_congr i h, hl]
  · rw [hxb, hxb', State.xbarB_afterBus_congr i h, hl]

/-! ### The Divider (R143, R144) -/

/-- A base strobe with the counter at 0: a roll-over. -/
theorem Divider.next_rollsOver {period : Byte} {dv : Divider} (h : dv.counter = 0) :
    dv.next true period = { counter := period - 1, strobe := !dv.strobe, clk := !dv.clk } := by
  simp [Divider.next, Divider.strobeNext, Divider.rollsOver, h, sub8]

/-- Any other base strobe: a countdown. -/
theorem Divider.next_countdown {period : Byte} {dv : Divider} (h : dv.counter ≠ 0) :
    dv.next true period = { counter := dv.counter - 1, strobe := false, clk := dv.clk } := by
  have hroll : dv.rollsOver true = false := by simpa [Divider.rollsOver] using h
  simp [Divider.next, Divider.strobeNext, hroll]

/-- In every cycle the Divider goes to its own next state, with the post-write period. -/
theorem exec_dv (i : Instr) (s : State) (hwf : i.wellFormed s.cfg = true) :
    ∃ t, exec i s = .next t ∧ t.dv = s.dv.next s.cd.strobe (s.afterBus i).regs.clockDivider :=
  ⟨_, exec_eq i s hwf, by rw [State.cycle_dv, State.afterBus_dv, State.afterBus_cd]⟩

/-- Settles O27: the Divider's three branches. -/
theorem dividerStep : Obligations.DividerStep := by
  intro i s hwf
  obtain ⟨t, hexec, hdv⟩ := exec_dv i s hwf
  refine ⟨t, hexec, fun hup h0 => ?_, fun hup h0 => ?_, fun hup => ?_⟩ <;> rw [hdv, hup]
  · exact Divider.next_rollsOver h0
  · exact Divider.next_countdown h0
  · exact s.dv.next_noStrobe _

/-- The period is read at a roll-over alone (R144). -/
theorem Divider.next_period {up : Bool} {dv : Divider} (h : ¬ (up = true ∧ dv.counter = 0)) (p q : Byte) :
    dv.next up p = dv.next up q := by
  cases up with
  | false => rw [dv.next_noStrobe, dv.next_noStrobe]
  | true =>
    have h0 : dv.counter ≠ 0 := fun h0 => h ⟨rfl, h0⟩
    rw [Divider.next_countdown h0, Divider.next_countdown h0]

/-- Settles O28: the two cycles differ in the period that the Divider is given, which it reads at a
roll-over alone. -/
theorem periodChangeIsDeferred : Obligations.PeriodChangeIsDeferred := by
  intro s v
  refine ⟨_, _, exec_eq (.wrClockDivider v) s rfl, exec_eq .nop s rfl, rfl,
    fun h => Divider.next_period h _ _, fun hup h0 => ?_⟩
  simp [State.afterBus, hup, Divider.next_rollsOver h0]

/-! ### The whole cycle by address (45_cycle_composition.md R223) -/

/-- The read data of a word's cycle: the byte at its address, or the cycle's draw. -/
theorem State.readResult_word (s : State) (w : BusWord) :
    s.readResult (decode s.cfg w) =
      if w.valid = true ∧ w.rw = false then some ((s.x w.addr).getD (Config.unmappedRead s.now))
      else none := by
  cases hv : w.valid with
  | false => rw [decode_invalid s.cfg w hv]; simp [State.readResult]
  | true =>
    cases hw : w.rw with
    | true => rw [s.readResult_write w hv hw]; simp
    | false =>
      rw [if_pos ⟨rfl, rfl⟩]
      cases hr : s.cfg.regAt w.addr with
      | some r => rw [s.readResult_read w r hv hw hr, s.x_of_regAt _ r hr]; rfl
      | none =>
        obtain ⟨hf, hm⟩ := regAt_none_iff.mp hr
        rw [decode_unmapped s.cfg w hv hf, hw, State.x, hr]
        exact congrArg some (if_neg hm)

/-- The byte at the address of a register of the fixed map that the configuration has. -/
theorem State.x_getD (s : State) (r : Reg) {a : Byte} (ha : r.addr s.cfg = some a)
    (hp : r.present s.cfg = true) (hr : r ≠ .resetMask) : (s.x a).getD 0 = s.regs.read s.cfg r := by
  rw [s.x_of_regAt a r (s.cfg.regAt_addr r a hp hr ha)]; rfl

/-- The operands of a channel's FSM by address (R161). -/
theorem State.triggerInputs_byAddress (s : State) (k : Fin 8) (hk : k.val < s.cfg.nTrig) :
    s.triggerInputs k =
      { tick := s.dv.strobe
        en := ((s.x 0x3C).getD 0).getLsbD k.val
        mode := modeOf s.cfg.modes ((s.x (BitVec.ofNat 8 (0x40 + 8 * k.val))).getD 0)
        n := (s.x (BitVec.ofNat 8 (0x41 + 8 * k.val))).getD 0
        d := (s.x (BitVec.ofNat 8 (0x42 + 8 * k.val))).getD 0
        p := (s.x (BitVec.ofNat 8 (0x43 + 8 * k.val))).getD 0 } := by
  have hp := decide_eq_true hk
  rw [s.x_getD .triggerEnables rfl rfl Reg.noConfusion, s.x_getD (.mode k) rfl hp Reg.noConfusion,
    s.x_getD (.interval k) rfl hp Reg.noConfusion, s.x_getD (.duration k) rfl hp Reg.noConfusion,
    s.x_getD (.phase k) rfl hp Reg.noConfusion]
  rfl

/-- Phases C and S of a cycle by address, from the state after phase W. -/
theorem State.cycle_byAddress (p : State) (o : Option Byte) :
    (∀ i : Fin 8,
        (p.cycle o).obs.xa[i] = xbarOut ((p.x (BitVec.ofNat 8 (0x20 + i.val))).getD 0) p.latA[i]
        ∧ (p.cycle o).obs.xb[i] = xbarOut ((p.x (BitVec.ofNat 8 (0x28 + i.val))).getD 0) p.latB[i])
    ∧ (p.cfg.resetMaskAddr = none → (p.cycle o).obs.rst = none)
    ∧ (∀ a, p.cfg.resetMaskAddr = some a → p.cfg.fixedRegAt a = none →
        ∃ lines, (p.cycle o).obs.rst = some lines
          ∧ ∀ i : Fin 8, lines[i] = ((p.x a).getD 0).getLsbD i.val)
    ∧ (p.cycle o).dv = p.dv.next p.cd.strobe ((p.x 0x14).getD 0)
    ∧ (∀ k : Fin 8, k.val < p.cfg.nTrig →
        (p.cycle o).x (BitVec.ofNat 8 (0x40 + 8 * k.val)) =
          some (modeNext p.cfg.modes p.dv.strobe
            ((p.x (BitVec.ofNat 8 (0x40 + 8 * k.val))).getD 0) p.ch[k].out))
    ∧ ∀ i : Fin 8,
        (p.cycle o).latA[i] = (p.input (xbarSelect ((p.x (BitVec.ofNat 8 (0x20 + i.val))).getD 0))).getD
          (Config.xbarOor p.now i.val)
        ∧ (p.cycle o).latB[i] = (p.input (xbarSelect ((p.x (BitVec.ofNat 8 (0x28 + i.val))).getD 0))).getD
          (Config.xbarOor p.now (8 + i.val)) := by
  have hA (i : Fin 8) := p.x_getD (.xbarA i) rfl rfl Reg.noConfusion
  have hB (i : Fin 8) := p.x_getD (.xbarB i) rfl rfl Reg.noConfusion
  refine ⟨fun i => ?_, fun hm => ?_, fun a hm hf => ?_, ?_, fun k hk => ?_, fun i => ?_⟩
  · rw [hA, hB]; exact ⟨p.cycle_xa o i, p.cycle_xb o i⟩
  · rw [State.cycle_rst, State.rst, hm]; rfl
  · have hr : p.cfg.regAt a = some .resetMask := by rw [p.cfg.regAt_of_unmapped a hf, if_pos hm]
    rw [p.x_of_regAt a _ hr, State.cycle_rst, State.rst, hm]
    exact ⟨_, rfl, fun i => by simp [RegFile.read]⟩
  · rw [p.x_getD .clockDivider rfl rfl Reg.noConfusion]; rfl
  · have hp : (Reg.mode k).present p.cfg = true := decide_eq_true hk
    have hat := p.cfg.regAt_addr (.mode k) _ hp Reg.noConfusion rfl
    rw [p.x_getD (.mode k) rfl hp Reg.noConfusion, (p.cycle o).x_of_regAt _ (.mode k) hat]
    refine congrArg some ((p.cycle_mode o k).trans (if_pos hk))
  · rw [hA, hB, ← p.latchNext_eq_getD, ← p.latchNext_eq_getD]
    exact ⟨p.cycle_latA o i, p.cycle_latB o i⟩

/-- Settles O10: the cycle by address from the state after phase W, whose bytes are those of the post-write
register file. -/
theorem stepIsTheWholeCycleByAddress : Obligations.StepIsTheWholeCycleByAddress := by
  intro s
  refine ⟨_, step_eq_nextCycle s, ?_⟩
  intro w rw post b addr inputs
  have hpost (a : Byte) : post a = (s.takeWord.afterBus (decode s.cfg w)).x a :=
    (s.takeWord.x_afterBus_word w a).symm
  have hb (a : Byte) : b a = ((s.takeWord.afterBus (decode s.cfg w)).x a).getD 0 := by rw [← hpost]
  obtain ⟨hout, hrst, hlines, hdv, hmode, hlat⟩ :=
    (s.takeWord.afterBus (decode s.cfg w)).cycle_byAddress (s.takeWord.readResult (decode s.cfg w))
  have hch (k : Fin 8) (hk : k.val < s.cfg.nTrig) := s.takeWord.afterBus_cycle_ch (decode s.cfg w)
    (s.takeWord.readResult (decode s.cfg w)) hk
  have hin (k : Fin 8) (hk : k.val < s.cfg.nTrig) :=
    (s.takeWord.afterBus (decode s.cfg w)).triggerInputs_byAddress k (by simpa using hk)
  simp only [← hb, State.afterBus_cfg, State.afterBus_cd, State.afterBus_dv, State.afterBus_ch,
    State.afterBus_latA, State.afterBus_latB, State.afterBus_now, State.input_afterBus]
    at hout hrst hlines hdv hmode hlat hin
  refine ⟨s.takeWord.readResult_word w, hout, hrst, hlines, s.nextCycle_cd, hdv,
    fun k hk => ⟨?_, hmode k hk⟩, fun a ha => ?_, hlat, s.nextCycle_cfg, s.nextCycle_busIn, s.nextCycle_now⟩
  · exact (hch k hk).trans (congrArg (Channel.next s.cfg.policy · s.ch[k]) (hin k hk))
  · rw [hpost]
    exact State.x_cycle _ _ a fun k hk h => ha k (by simpa using hk) (Option.some.inj h).symm

end Sys2Proof.Machine

/-! PROOF. Runs from reset: the cycles of the base strobe and of the wall tick (41_clock_dividers.md
sections 1 and 2), and a block that no host writes (70_reset_and_hazards.md section 1). Both strobes are
the zeros of a counter that is reloaded at 0; for the wall tick it counts the cycles to the next roll-over
of both dividers together. -/

namespace Sys2Proof.Machine

/-! ### A counter that is reloaded at 0 -/

/-- A counter that starts at 0, is reloaded with `d - 1` at 0 and counts down elsewhere is 0 at exactly the
multiples of `d`. -/
theorem reload_zero_iff {d : Nat} (hd : 1 ≤ d) {K : Nat → Nat} (h0 : K 0 = 0)
    (hstep : ∀ n, K (n + 1) = if K n = 0 then d - 1 else K n - 1) (n : Nat) :
    K n = 0 ↔ ∃ m, n = m * d := by
  have hinv : K n < d ∧ d ∣ K n + n := by
    induction n with
    | zero => exact ⟨by omega, by simp [h0]⟩
    | succ n ih =>
      obtain ⟨hlt, hdvd⟩ := ih
      rw [hstep]
      split_ifs with hz
      · refine ⟨by omega, ?_⟩
        have : d - 1 + (n + 1) = d + (K n + n) := by omega
        rw [this]
        exact Nat.dvd_add (Nat.dvd_refl d) hdvd
      · exact ⟨by omega, by rwa [show K n - 1 + (n + 1) = K n + n by omega]⟩
  obtain ⟨hlt, hdvd⟩ := hinv
  constructor
  · intro hz
    obtain ⟨m, hm⟩ := hdvd
    exact ⟨m, by rw [hz, Nat.zero_add] at hm; rw [hm, Nat.mul_comm]⟩
  · rintro ⟨m, rfl⟩
    have : d ∣ K (m * d) := (Nat.dvd_add_left (Nat.dvd_mul_left d m)).mp hdvd
    exact Nat.eq_zero_of_dvd_of_lt this hlt

/-! ### The base strobe (R142) -/

@[simp] theorem ClockDivider.next_strobe (period : Nat) (cd : ClockDivider) :
    (cd.next period).strobe = decide (cd.counter = 0) := by
  unfold ClockDivider.next ClockDivider.strobeNext; split <;> rfl

@[simp] theorem ClockDivider.next_counter (period : Nat) (cd : ClockDivider) :
    (cd.next period).counter = if cd.counter = 0 then period - 1 else cd.counter - 1 := by
  unfold ClockDivider.next; split <;> rfl

theorem State.iterate_nextCycle_now (n : Nat) (s : State) :
    (State.nextCycle^[n] s).now = s.now + n :=
  iterate_nextCycle_induction (P := fun n t => t.now = s.now + n) rfl
    (fun n t ht => by rw [State.nextCycle_now, ht, Nat.add_assoc]) n

/-- Settles O29: the strobe of a cycle is the ClockDivider's counter at 0 in the cycle before. -/
theorem baseStrobePositions : Obligations.BaseStrobePositions := by
  intro cfg ws n hC
  refine ⟨_, runCycles_eq n _, (State.iterate_nextCycle_now n _).trans (Nat.zero_add n), ?_⟩
  have hzero (n : Nat) := reload_zero_iff hC
    (K := fun n => (State.nextCycle^[n] (startWith cfg ws)).cd.counter) rfl
    (fun n => by
      rw [Function.iterate_succ_apply', State.nextCycle_cd, ClockDivider.next_counter,
        State.iterate_nextCycle_cfg]
      rfl) n
  cases n with
  | zero =>
    refine ⟨fun h => Bool.noConfusion h, ?_⟩
    rintro ⟨m, hm⟩; omega
  | succ n =>
    rw [Function.iterate_succ_apply', State.nextCycle_cd, ClockDivider.next_strobe, decide_eq_true_eq,
      hzero n]
    exact exists_congr fun m => by omega

/-! ### Cycles to the next roll-over of the Divider (R143) -/

/-- The number of cycles from this one to the next in which the Divider rolls over: `dv.counter` base
strobes after the next one. -/
def State.toRollOver (s : State) : Nat :=
  s.dv.counter.toNat * s.cfg.clkdivMaxPeriod + (if s.cd.strobe then 0 else s.cd.counter + 1)

/-- The Divider rolls over in exactly the cycles with none to go. -/
theorem State.toRollOver_eq_zero {s : State} (hC : 1 ≤ s.cfg.clkdivMaxPeriod) :
    s.toRollOver = 0 ↔ s.cd.strobe = true ∧ s.dv.counter = 0 := by
  have hbyte : s.dv.counter.toNat = 0 ↔ s.dv.counter = 0 :=
    ⟨fun h => BitVec.eq_of_toNat_eq h, fun h => by rw [h]; rfl⟩
  rw [← hbyte, State.toRollOver]
  cases hs : s.cd.strobe with
  | false => simp
  | true => simp; omega

/-- A reload loads one less than the period, a period byte of 0 being read as 256 (R145). -/
theorem periodOf_pred (b : Byte) : (b - 1).toNat + 1 = periodOf b := by
  unfold periodOf
  split_ifs with h
  · subst h; rfl
  · exact toNat_pred h

/-- A word that does not write the period leaves it. -/
theorem State.nextCycle_clockDivider {s : State} (h : wordWrites s.busNow 0x14 = false) :
    s.nextCycle.regs.clockDivider = s.regs.clockDivider := by
  have hx := s.takeWord.x_afterBus_word s.busNow 0x14
  rw [if_neg (by
    rintro ⟨hv, hw, -, ha⟩
    simp [wordWrites, hv, hw, ← ha] at h)] at hx
  have hat (p : State) : p.x 0x14 = some p.regs.clockDivider :=
    p.x_of_regAt 0x14 .clockDivider (p.cfg.regAt_addr .clockDivider _ rfl Reg.noConfusion rfl)
  rw [hat, hat] at hx
  exact Option.some.inj hx

/-- The word of a cycle is one of the stream's, or NOP's. -/
theorem State.busNow_mem (s : State) : s.busNow ∈ s.busIn ∨ s.busNow = 0 := by
  unfold State.busNow
  cases s.busIn with
  | nil => exact .inr rfl
  | cons w ws => exact .inl List.mem_cons_self

/-- The dividers of a state in a run from reset with the period byte `b`, which no word to come writes: the
ClockDivider has just been reloaded at a base strobe, and a wall tick is no roll-over. -/
structure State.Dividing (s : State) (b : Byte) : Prop where
  period : s.regs.clockDivider = b
  unwritten : ∀ w ∈ s.busIn, wordWrites w 0x14 = false
  reloaded : s.cd.strobe = true → s.cd.counter = s.cfg.clkdivMaxPeriod - 1
  tickNoRollOver : s.dv.strobe = true → s.toRollOver ≠ 0

section Dividing
variable {s : State} {b : Byte} (h : s.Dividing b) (hC : 1 ≤ s.cfg.clkdivMaxPeriod)
include h

theorem State.Dividing.busNow : wordWrites s.busNow 0x14 = false := by
  rcases s.busNow_mem with hw | hw
  · exact h.unwritten _ hw
  · rw [hw]; rfl

/-- The Divider's step with the period byte that stays (R143). -/
theorem State.Dividing.nextCycle_dv : s.nextCycle.dv = s.dv.next s.cd.strobe b := by
  have hkeep : (s.takeWord.afterBus (decode s.cfg s.busNow)).regs.clockDivider = b :=
    (State.nextCycle_clockDivider h.busNow).trans h.period
  simp [State.nextCycle, hkeep]

include hC

/-- The cycles to the next roll-over count down, and from a roll-over they are `C * P - 1`. -/
theorem State.Dividing.toRollOver_nextCycle :
    s.nextCycle.toRollOver =
      if s.toRollOver = 0 then s.cfg.clkdivMaxPeriod * periodOf b - 1 else s.toRollOver - 1 := by
  have hcd : (if s.nextCycle.cd.strobe then 0 else s.nextCycle.cd.counter + 1) =
      if s.cd.counter = 0 then 0 else s.cd.counter := by
    rw [State.nextCycle_cd, ClockDivider.next_strobe, ClockDivider.next_counter]
    by_cases h0 : s.cd.counter = 0
    · simp [h0]
    · simp [h0]; omega
  rw [State.toRollOver, hcd, State.nextCycle_cfg, h.nextCycle_dv]
  cases hs : s.cd.strobe with
  | false =>
    have hne : s.toRollOver ≠ 0 := by simp [State.toRollOver, hs]
    rw [s.dv.next_noStrobe, if_neg hne, State.toRollOver, hs]
    simp only [Bool.false_eq_true, if_false]
    split_ifs with h0 <;> omega
  | true =>
    have hreload : (if s.cd.counter = 0 then 0 else s.cd.counter) = s.cfg.clkdivMaxPeriod - 1 := by
      rw [h.reloaded hs]; split_ifs with h0 <;> omega
    rw [hreload]
    by_cases h0 : s.dv.counter = 0
    · rw [if_pos ((State.toRollOver_eq_zero hC).mpr ⟨hs, h0⟩), Divider.next_rollsOver h0,
        ← periodOf_pred b, Nat.mul_succ, Nat.mul_comm]
      dsimp only
      omega
    · have hne : s.toRollOver ≠ 0 := fun hz => h0 ((State.toRollOver_eq_zero hC).mp hz).2
      rw [if_neg hne, Divider.next_countdown h0, State.toRollOver, hs, if_pos rfl, ← toNat_pred h0,
        Nat.succ_mul]
      dsimp only
      omega

/-- The wall tick of the next cycle is this cycle's roll-over. -/
theorem State.Dividing.tick_nextCycle : s.nextCycle.dv.strobe = true ↔ s.toRollOver = 0 := by
  have hroll : s.dv.rollsOver s.cd.strobe = true ↔ s.toRollOver = 0 := by
    rw [State.toRollOver_eq_zero hC]; simp [Divider.rollsOver]
  rw [h.nextCycle_dv]
  show (s.dv.rollsOver s.cd.strobe && !s.dv.strobe) = true ↔ _
  rw [Bool.and_eq_true, hroll, Bool.not_eq_true', Bool.eq_false_iff]
  exact ⟨And.left, fun hz => ⟨hz, fun ht => h.tickNoRollOver ht hz⟩⟩

theorem State.Dividing.next (hD : 2 ≤ s.cfg.clkdivMaxPeriod * periodOf b) : s.nextCycle.Dividing b where
  period := (State.nextCycle_clockDivider h.busNow).trans h.period
  unwritten w hw := h.unwritten w (List.mem_of_mem_tail (by simpa using hw))
  reloaded hs := by
    rw [State.nextCycle_cd, ClockDivider.next_strobe, decide_eq_true_eq] at hs
    rw [State.nextCycle_cd, ClockDivider.next_counter, if_pos hs, State.nextCycle_cfg]
  tickNoRollOver ht := by
    rw [h.toRollOver_nextCycle hC, if_pos ((h.tick_nextCycle hC).mp ht)]
    omega

end Dividing

theorem dividing_startWith (cfg : Config) (ws : List BusWord) (hws : ∀ w ∈ ws, wordWrites w 0x14 = false) :
    (startWith cfg ws).Dividing cfg.divInitialPeriod where
  period := rfl
  unwritten := hws
  reloaded := nofun
  tickNoRollOver := nofun

/-- Settles O30: the tick of a cycle is the roll-over of the cycle before, and the cycles to the next
roll-over are a counter that is reloaded with `C * P - 1` and is 0 in cycle 1. -/
theorem wallTickPositions : Obligations.WallTickPositions := by
  intro cfg ws n hC hD hws
  have hdiv (n : Nat) : (State.nextCycle^[n] (startWith cfg ws)).Dividing cfg.divInitialPeriod :=
    iterate_nextCycle_induction (P := fun n t => t.cfg = cfg ∧ t.Dividing cfg.divInitialPeriod)
      ⟨rfl, dividing_startWith cfg ws hws⟩
      (fun n t ⟨hcfg, ht⟩ => ⟨t.nextCycle_cfg.trans hcfg, ht.next (hcfg ▸ hC) (hcfg ▸ hD)⟩) n |>.2
  have hC' (n : Nat) : 1 ≤ (State.nextCycle^[n] (startWith cfg ws)).cfg.clkdivMaxPeriod := by
    rwa [State.iterate_nextCycle_cfg]
  have hK (n : Nat) := (hdiv n).toRollOver_nextCycle (hC' n)
  have htick (n : Nat) := (hdiv n).tick_nextCycle (hC' n)
  simp only [← Function.iterate_succ_apply', State.iterate_nextCycle_cfg] at hK htick
  have h0 : (startWith cfg ws).toRollOver = 1 := by simp [State.toRollOver, startWith, State.resetOf]
  refine ⟨_, runCycles_eq n _, ?_⟩
  have hzero (n : Nat) := reload_zero_iff (Nat.le_of_lt hD)
    (K := fun n => (State.nextCycle^[n + 1] (startWith cfg ws)).toRollOver)
    ((hK 0).trans (by simp [h0])) (fun n => hK (n + 1)) n
  match n with
  | 0 => exact ⟨fun h => Bool.noConfusion h, fun ⟨m, hm⟩ => by omega⟩
  | 1 => exact (htick 0).trans ⟨fun h => by simp [h0] at h, fun ⟨m, hm⟩ => by omega⟩
  | n + 2 =>
    rw [htick (n + 1), hzero n]
    exact exists_congr fun m => by omega

end Sys2Proof.Machine

/-! PROOF. A block that no host writes stays in its reset state (70_reset_and_hazards.md section 1). -/

namespace Sys2Proof.Machine

/-! ### A cycle without a bus write -/

/-- A word with no write in it leaves phase W nothing to do. -/
theorem State.afterBus_of_noWrite (s : State) (w : BusWord) (h : w.valid = true → w.rw = false) :
    s.afterBus (decode s.cfg w) = s := by
  cases hv : w.valid with
  | false => rw [decode_invalid s.cfg w hv]; rfl
  | true => exact s.afterBus_read w hv (h hv)

/-! ### The quiescent block -/

/-- Every byte of the reset register file but the period is 0x00 with the spec's defaults. -/
theorem resetOf_noDefaults {cfg : Config} (h : cfg.defaults = []) :
    (RegFile.resetOf cfg).triggerEnables = 0
    ∧ ∀ k : Fin 8, (RegFile.resetOf cfg).mode[k] = 0 ∧ (RegFile.resetOf cfg).xbarA[k] = 0
        ∧ (RegFile.resetOf cfg).xbarB[k] = 0 := by
  simp [RegFile.resetOf, Reg.addr, Config.defaultAt, h]

/-- A disabled channel in its reset state stays there: the disable step clears what is clear already. -/
theorem Channel.next_reset (p : ConflictPolicy) {x : TriggerInputs} (he : x.en = false) :
    Channel.reset.next p x = Channel.reset := by
  cases ht : x.tick with
  | true => rw [Channel.next_disabled p x _ ht he]; rfl
  | false => exact Channel.next_offCycle p x _ ht ExecState.noConfusion

/-- A cell with control byte 0x00 puts out 0, whatever it has latched (R202). -/
theorem xbarOut_zero (lat : Bool) : xbarOut 0 lat = false := rfl

/-- The block at rest: the reset registers, every channel reset, every output 0 and no write to come. -/
structure State.Quiescent (cfg : Config) (s : State) : Prop where
  cfg_eq : s.cfg = cfg
  noWrites : ∀ w ∈ s.busIn, w.valid = true → w.rw = false
  regs : s.regs = RegFile.resetOf cfg
  ch : ∀ k : Fin 8, s.ch[k] = Channel.reset
  outputs : ∀ i : Fin 8, s.obs.xa[i] = false ∧ s.obs.xb[i] = false

/-- The next state of a block at rest is that of a cycle of its own. -/
theorem State.Quiescent.nextCycle_eq {cfg : Config} {s : State} (h : s.Quiescent cfg) :
    ∃ o, s.nextCycle = s.takeWord.cycle o := by
  have hw : s.busNow.valid = true → s.busNow.rw = false := by
    rcases s.busNow_mem with hmem | h0
    · exact h.noWrites _ hmem
    · rw [h0]; exact fun hv => absurd hv (by decide)
  exact ⟨_, congrArg (State.cycle · _) (s.takeWord.afterBus_of_noWrite s.busNow hw)⟩

theorem State.Quiescent.next {cfg : Config} {s : State} (h : s.Quiescent cfg) (hd : cfg.defaults = [])
    (hm : cfg.modes = ModeCodes.ofSpec) : s.nextCycle.Quiescent cfg := by
  obtain ⟨hen, hzero⟩ := resetOf_noDefaults hd
  obtain ⟨o, ho⟩ := h.nextCycle_eq
  have hstop (k : Fin 8) (tick out : Bool) : modeNext s.cfg.modes tick s.regs.mode[k] out = s.regs.mode[k] := by
    rw [h.regs, (hzero k).1, h.cfg_eq, hm]
    exact modeNext_of_ne (by decide) (by decide) tick out
  have hmode : (s.takeWord.cycle o).regs.mode = s.regs.mode := by
    refine Vector.ext fun n hn => ?_
    rw [State.cycle_mode s.takeWord o ⟨n, hn⟩]
    split_ifs
    · exact hstop ⟨n, hn⟩ _ _
    · rfl
  refine ⟨s.nextCycle_cfg.trans h.cfg_eq,
    fun w hw => h.noWrites w (List.mem_of_mem_tail (by simpa using hw)), ?_, fun k => ?_, fun i => ?_⟩
  · rw [ho, ← h.regs, show (s.takeWord.cycle o).regs = { s.regs with mode := (s.takeWord.cycle o).regs.mode }
      from rfl, hmode]
  · have hoff : (s.takeWord.triggerInputs k).en = false := by
      simp [State.triggerInputs, h.regs, hen]
    have hch : s.ch[k.val] = Channel.reset := h.ch k
    simp [ho, hch, Channel.next_reset _ hoff]
  · rw [ho]
    refine ⟨(State.cycle_xa _ o i).trans ?_, (State.cycle_xb _ o i).trans ?_⟩
    · rw [State.xa, State.takeWord_regs, h.regs, (hzero i).2.1, xbarOut_zero]
    · rw [State.xb, State.takeWord_regs, h.regs, (hzero i).2.2, xbarOut_zero]

/-- Settles O58: the block is at rest after reset, and a cycle without a write keeps it so. -/
theorem quiescentWithoutHostWrites : Obligations.QuiescentWithoutHostWrites := by
  intro cfg ws n _ hd hm hws
  have hstart : (startWith cfg ws).Quiescent cfg :=
    ⟨rfl, hws, rfl, fun k => by simp [startWith, State.resetOf],
      fun i => by simp [startWith, State.resetOf, Outputs.reset]⟩
  have h : (State.nextCycle^[n] (startWith cfg ws)).Quiescent cfg :=
    iterate_nextCycle_induction (P := fun _ t => t.Quiescent cfg) hstart (fun _ _ ht => ht.next hd hm) n
  exact ⟨_, runCycles_eq n _, h.regs, h.ch, h.outputs⟩

end Sys2Proof.Machine

/-! PROOF. Whole pulses in the absence of bus operations (43_trigger_controller.md section 3,
42_trigger_fsm.md section 5). One pulse, from its arming on, is a phase that each wall tick advances; a
one-shot is one such pulse with its Mode byte beside it, and Interval mode re-arms it every `n` ticks. -/

namespace Sys2Proof.Machine

/-! ### Runs counted in wall ticks -/

theorem wallTicks_succ (n : Nat) (s : State) :
    wallTicks (n + 1) s = (if s.dv.strobe then 1 else 0) + wallTicks n s.nextCycle := by
  simp only [wallTicks, step_eq_nextCycle]

theorem wallTicks_succ_last (n : Nat) (s : State) :
    wallTicks (n + 1) s =
      wallTicks n s + if (State.nextCycle^[n] s).dv.strobe then 1 else 0 := by
  induction n generalizing s with
  | zero => rw [wallTicks_succ, Nat.add_comm]; rfl
  | succ n ih => rw [wallTicks_succ, ih, wallTicks_succ, Function.iterate_succ_apply, Nat.add_assoc]

/-- What holds of the first state and no ticks, and passes on with each cycle and its tick, holds after
every run. -/
theorem wallTicks_induction {P : Nat → State → Prop} {s : State} (h0 : P 0 s)
    (hoff : ∀ T t, t.dv.strobe = false → P T t → P T t.nextCycle)
    (htick : ∀ T t, t.dv.strobe = true → P T t → P (T + 1) t.nextCycle) (n : Nat) :
    P (wallTicks n s) (State.nextCycle^[n] s) := by
  induction n with
  | zero => exact h0
  | succ n ih =>
    rw [wallTicks_succ_last, Function.iterate_succ_apply']
    cases hs : (State.nextCycle^[n] s).dv.strobe with
    | false => exact hoff _ _ hs ih
    | true => exact htick _ _ hs ih

theorem State.nextCycle_tick_low {s : State} (h : s.dv.strobe = true) : s.nextCycle.dv.strobe = false := by
  simpa [State.nextCycle] using s.dv.next_afterTick _ _ h

/-! ### A run with no bus operation -/

/-- A state in a run from `s` with no bus operation: the registers are those of `s` but for the Mode
registers. -/
structure State.IdleFrom (s t : State) : Prop where
  cfg : t.cfg = s.cfg
  busIn : t.busIn = []
  regs : t.regs = { s.regs with mode := t.regs.mode }

theorem State.nextCycle_empty {t : State} (h : t.busIn = []) : t.nextCycle = t.takeWord.cycle none := by
  have hnow : t.busNow = 0 := by rw [State.busNow, h]; rfl
  rw [State.nextCycle, hnow, decode_invalid t.cfg 0 rfl]
  rfl

section IdleFrom
variable {s t : State} (h : s.IdleFrom t)
include h

theorem State.IdleFrom.next : s.IdleFrom t.nextCycle where
  cfg := t.nextCycle_cfg.trans h.cfg
  busIn := by rw [State.nextCycle_busIn, h.busIn]; rfl
  regs := by
    rw [State.nextCycle_empty h.busIn]
    calc (t.takeWord.cycle none).regs
        = { t.regs with mode := (t.takeWord.cycle none).regs.mode } := rfl
      _ = { s.regs with mode := (t.takeWord.cycle none).regs.mode } := by rw [h.regs]

variable {k : Fin 8} (hk : k.val < s.cfg.nTrig)
include hk

/-- The channel's step, with its own mode and the operands that do not change. -/
theorem State.IdleFrom.nextCycle_ch :
    t.nextCycle.ch[k] = t.ch[k].next s.cfg.policy
      { s.triggerInputs k with tick := t.dv.strobe, mode := modeOf s.cfg.modes t.regs.mode[k] } := by
  have hin : t.triggerInputs k =
      { s.triggerInputs k with tick := t.dv.strobe, mode := modeOf s.cfg.modes t.regs.mode[k] } := by
    simp only [State.triggerInputs, h.cfg]
    rw [h.regs]
  have hch := t.takeWord.cycle_ch none k
  rw [if_pos (show k.val < t.takeWord.cfg.nTrig from h.cfg ▸ hk)] at hch
  rw [State.nextCycle_empty h.busIn, ← hin, ← h.cfg]
  exact hch

theorem State.IdleFrom.nextCycle_mode :
    t.nextCycle.regs.mode[k] = modeNext s.cfg.modes t.dv.strobe t.regs.mode[k] t.ch[k].out := by
  have hmode := t.takeWord.cycle_mode none k
  rw [if_pos (show k.val < t.takeWord.cfg.nTrig from h.cfg ▸ hk)] at hmode
  rw [State.nextCycle_empty h.busIn, ← h.cfg]
  exact hmode

end IdleFrom

/-- A channel that is Off is neither in Init nor in Wait. -/
theorem ne_of_off {c : Channel} (h : c.es = .off) : c.es ≠ .init ∧ c.es ≠ .wait := by simp [h]

/-! ### One pulse

Between its arming and the next, step 2 writes no variable but `ic`. -/

section Countdown
variable {x : TriggerInputs} {c : Channel} (p : ConflictPolicy) {v : Option Byte}
  (ht : x.tick = true) (he : x.en = true) (h2 : step2 x c = { ic := v })
include ht he h2

theorem Channel.next_wait_counts (hw : c.es = .wait) (ho : c.out = false) (hp : c.pc ≠ 0) :
    c.next p x = { c with pc := c.pc - 1, ic := v.getD c.ic } := by
  rw [c.next_tick p x ht he (by simp [hw]), h2, step3_low x c ho, step5_counts c hw hp]
  cases p <;> cases v <;> rfl

theorem Channel.next_wait_rises (hw : c.es = .wait) (ho : c.out = false) (hp : c.pc = 0) :
    c.next p x = { c with es := .active, out := true, ic := v.getD c.ic } := by
  rw [c.next_tick p x ht he (by simp [hw]), h2, step3_low x c ho, step5_ends c ⟨hw, hp⟩]
  cases p <;> cases v <;> rfl

theorem Channel.next_pulse_counts (ha : c.es = .active) (ho : c.out = true) (hm : x.mode ≠ .constant)
    (hd : c.dc ≠ 0) : c.next p x = { c with dc := c.dc - 1, ic := v.getD c.ic } := by
  rw [c.next_tick p x ht he (by simp [ha]), h2, step3_counts x c hm ho hd, step5_rests c (by simp [ha])]
  cases p <;> cases v <;> rfl

theorem Channel.next_pulse_ends (ha : c.es = .active) (ho : c.out = true) (hm : x.mode ≠ .constant)
    (hd : c.dc = 0) : c.next p x = { c with es := .off, out := false, ic := v.getD c.ic } := by
  rw [c.next_tick p x ht he (by simp [ha]), h2, step3_ends x c hm ⟨ho, hd⟩, step5_rests c (by simp [ha])]
  cases p <;> cases v <;> rfl

theorem Channel.next_off_rests (hoff : c.es = .off) (ho : c.out = false) :
    c.next p x = { c with ic := v.getD c.ic } := by
  rw [c.next_tick_rest p ht he (by simp [hoff]) ho (by simp [hoff]), h2]
  rfl

end Countdown

/-- A pulse of `d` ticks after `p` ticks, `r` ticks after the tick that armed it; `tick` is the wall tick
of the cycle. -/
inductive PulsePhase (d p r : Nat) (tick : Bool) (c : Channel) : Prop where
  /-- in the cycle after the arming -/
  | init (hr : r = 0) (htick : tick = false) (hes : c.es = .init) (hout : c.out = false)
    (hdc : c.dc.toNat + 1 = d)
  /-- in the phase delay -/
  | waiting (hr : r < p) (hes : c.es = .wait) (hout : c.out = false) (hpc : c.pc.toNat + r + 1 = p)
    (hdc : c.dc.toNat + 1 = d)
  /-- in the pulse -/
  | pulse (hr : p ≤ r) (hes : c.es = .active) (hout : c.out = true) (hdc : c.dc.toNat + r + 1 = p + d)
  /-- after the pulse -/
  | ended (hr : p + d ≤ r) (hes : c.es = .off) (hout : c.out = false)

namespace PulsePhase
variable {d p r : Nat} {tick : Bool} {c : Channel}

/-- At a tick, and in every later cycle but the first, the output is high exactly in the pulse. -/
theorem out_iff (h : PulsePhase d p r tick c) (hr : tick = true ∨ r ≠ 0) :
    c.out = true ↔ p ≤ r ∧ r < p + d := by
  cases h with
  | init h0 ht hes hout hdc => rcases hr with h | h <;> simp_all
  | waiting hr hes hout hpc hdc => simp [hout]; omega
  | pulse hr hes hout hdc => simp [hout]; omega
  | ended hr hes hout => simp [hout]; omega

/-- After the pulse the channel is at rest. -/
theorem rest (h : PulsePhase d p r tick c) (hd : 1 ≤ d) (hr : p + d ≤ r) :
    c.es = .off ∧ c.out = false := by
  cases h with
  | ended _ hes hout => exact ⟨hes, hout⟩
  | _ => omega

theorem es_ne_off (h : PulsePhase d p r tick c) (hr : r < p + d) : c.es ≠ .off := by
  cases h with
  | ended hr' _ _ => omega
  | init _ _ hes _ _ | waiting _ hes _ _ _ | pulse _ hes _ _ => simp [hes]

/-- An off-cycle resolves the phase of a channel in Init and leaves every other as it is. -/
theorem offCycle {x : TriggerInputs} (h : PulsePhase d x.p.toNat r false c) (q : ConflictPolicy)
    (ht : x.tick = false) (tick' : Bool) : PulsePhase d x.p.toNat r tick' (c.next q x) := by
  have hkeep (hi : c.es ≠ .init) : c.next q x = c := c.next_offCycle q x ht hi
  cases h with
  | init hr _ hes hout hdc =>
    rw [c.next_init q x ht hes]
    split_ifs with hp
    · exact .pulse (by simp [hp]) rfl rfl (by simp [hp, hr]; omega)
    · have := toNat_pred hp
      exact .waiting (by omega) rfl hout (by simp only; omega) hdc
  | waiting hr hes hout hpc hdc => rw [hkeep (by simp [hes])]; exact .waiting hr hes hout hpc hdc
  | pulse hr hes hout hdc => rw [hkeep (by simp [hes])]; exact .pulse hr hes hout hdc
  | ended hr hes hout => rw [hkeep (by simp [hes])]; exact .ended hr hes hout

/-- A tick advances the pulse while step 2 writes no variable but `ic`. -/
theorem tick_next {x : TriggerInputs} (h : PulsePhase d p r true c) (q : ConflictPolicy) {v : Option Byte}
    (ht : x.tick = true) (he : x.en = true) (hm : x.mode ≠ .constant)
    (h2 : step2 x c = { ic := v }) (tick' : Bool) :
    PulsePhase d p (r + 1) tick' (c.next q x) := by
  cases h with
  | init _ htick _ _ _ => cases htick
  | waiting hr hes hout hpc hdc =>
    by_cases hp : c.pc = 0
    · rw [c.next_wait_rises q ht he h2 hes hout hp]
      rw [hp] at hpc
      exact .pulse (by simp at hpc; omega) rfl rfl (by simp at hpc; simp only; omega)
    · rw [c.next_wait_counts q ht he h2 hes hout hp]
      have := toNat_pred hp
      exact .waiting (by omega) hes hout (by simp only; omega) hdc
  | pulse hr hes hout hdc =>
    by_cases hz : c.dc = 0
    · rw [c.next_pulse_ends q ht he h2 hes hout hm hz]
      rw [hz] at hdc
      exact .ended (by simp at hdc; omega) rfl rfl
    · rw [c.next_pulse_counts q ht he h2 hes hout hm hz]
      have := toNat_pred hz
      exact .pulse (by omega) hes hout (by simp only; omega)
  | ended hr hes hout =>
    rw [c.next_off_rests q ht he h2 hes hout]
    exact .ended (by omega) hes hout

end PulsePhase

/-! ### Interval mode (42_trigger_fsm.md section 5) -/

/-- Interval mode `r` ticks after an arming: the pulse of that arming, and the ticks left to the next. -/
structure IntervalPhase (n d p r : Nat) (tick : Bool) (c : Channel) : Prop where
  pulse : PulsePhase d p r tick c
  ic : c.ic.toNat + r + 1 = n

theorem IntervalPhase.offCycle {x : TriggerInputs} {c : Channel} {n d r : Nat} (q : ConflictPolicy)
    (h : IntervalPhase n d x.p.toNat r false c) (ht : x.tick = false) (tick' : Bool) :
    IntervalPhase n d x.p.toNat r tick' (c.next q x) := by
  refine ⟨h.pulse.offCycle q ht tick', ?_⟩
  have hic : (c.next q x).ic = c.ic := by
    rw [c.next_ic q (by simp [TriggerInputs.disables, ht])]
    simp [TriggerInputs.gated, ht]
  rw [hic]; exact h.ic

/-- A tick counts on to the next arming, or arms again `n` ticks after the last arming. -/
theorem IntervalPhase.tick_next {x : TriggerInputs} {c : Channel} {r : Nat} (q : ConflictPolicy)
    (hm : x.mode = .interval) (hd : x.d ≠ 0) (hn : x.d.toNat + x.p.toNat < x.n.toNat)
    (h : IntervalPhase x.n.toNat x.d.toNat x.p.toNat r true c)
    (ht : x.tick = true) (he : x.en = true) :
    IntervalPhase x.n.toNat x.d.toNat x.p.toNat (if r + 1 = x.n.toNat then 0 else r + 1) false
      (c.next q x) := by
  have hd1 := toNat_pred hd
  have hn0 : x.n ≠ 0 := by rintro h0; rw [h0] at hn; exact absurd hn (Nat.not_lt_zero _)
  have hn1 := toNat_pred hn0
  have hicr := h.ic
  by_cases hz : c.ic = 0
  · have hr : r + 1 = x.n.toNat := by rw [hz] at hicr; simpa using hicr
    obtain ⟨hes, hout⟩ := h.pulse.rest (by omega) (by omega)
    rw [if_pos hr, c.next_tick_rest q ht he (by simp [hes]) hout (by simp [hes]),
      step2_arms x c ⟨hm, hd, hn0, hz⟩]
    exact ⟨.init rfl rfl rfl hout hd1, by simpa [Channel.commit] using hn1⟩
  · have hic1 := toNat_pred hz
    have h2 := step2_interval_counts x c hm hd hn0 hz
    rw [if_neg (by omega)]
    refine ⟨h.pulse.tick_next q ht he (by simp [hm]) h2 false, ?_⟩
    have hi : c.es ≠ .init := by
      cases h.pulse with
      | init _ htick _ _ _ => cases htick
      | waiting _ hes _ _ _ | pulse _ hes _ _ | ended _ hes _ => simp [hes]
    rw [c.next_tick_ic q ht he hi, h2]
    simp only [Option.getD_some]
    omega

/-- A state in a run from `s` with no bus operation and channel `k` in Interval mode, after `T` wall ticks. A
start with `ic = 0` stands `n - 1` ticks after an arming. -/
structure State.InInterval (s : State) (k : Fin 8) (T : Nat) (t : State) : Prop where
  idle : s.IdleFrom t
  mode : t.regs.mode[k] = s.cfg.modes.interval
  phase : ∃ r m, T + s.regs.interval[k].toNat = 1 + r + m * s.regs.interval[k].toNat
    ∧ IntervalPhase s.regs.interval[k].toNat s.regs.duration[k].toNat s.regs.phase[k].toNat r
        t.dv.strobe t.ch[k]

section InInterval
variable {s t : State} {k : Fin 8} {T : Nat} (h : s.InInterval k T t) (hk : k.val < s.cfg.nTrig)
  (hdist : s.cfg.modes.distinct = true)
include h hk hdist

theorem State.InInterval.nextCycle_mode : t.nextCycle.regs.mode[k] = s.cfg.modes.interval := by
  obtain ⟨-, ⟨hin, -, -⟩, ⟨hno, -⟩, -⟩ := (modeCodes_distinct_iff _).mp hdist
  rw [h.idle.nextCycle_mode hk, h.mode]
  exact modeNext_of_ne hno hin.symm _ _

theorem State.InInterval.nextCycle_ch : t.nextCycle.ch[k] = t.ch[k].next s.cfg.policy
    { s.triggerInputs k with tick := t.dv.strobe, mode := .interval } := by
  rw [h.idle.nextCycle_ch hk, h.mode, modeOf_interval hdist]

theorem State.InInterval.offCycle (hs : t.dv.strobe = false) : s.InInterval k T t.nextCycle := by
  obtain ⟨r, m, hT, hphase⟩ := h.phase
  rw [hs] at hphase
  refine ⟨h.idle.next, h.nextCycle_mode hk hdist, r, m, hT, ?_⟩
  rw [h.nextCycle_ch hk hdist]
  exact IntervalPhase.offCycle
    (x := { s.triggerInputs k with tick := t.dv.strobe, mode := .interval }) _ hphase hs _

theorem State.InInterval.tick (hs : t.dv.strobe = true)
    (hen : s.regs.triggerEnables.getLsbD k.val = true) (hd : s.regs.duration[k] ≠ 0)
    (hn : s.regs.duration[k].toNat + s.regs.phase[k].toNat < s.regs.interval[k].toNat) :
    s.InInterval k (T + 1) t.nextCycle := by
  obtain ⟨r, m, hT, hphase⟩ := h.phase
  rw [hs] at hphase
  have hnext := IntervalPhase.tick_next
    (x := { s.triggerInputs k with tick := t.dv.strobe, mode := .interval }) s.cfg.policy rfl hd hn hphase hs
    hen
  rw [← h.nextCycle_ch hk hdist, ← State.nextCycle_tick_low hs] at hnext
  refine ⟨h.idle.next, h.nextCycle_mode hk hdist, _, if r + 1 = s.regs.interval[k].toNat then m + 1 else m,
    ?_, hnext⟩
  show T + 1 + s.regs.interval[k].toNat = 1 + (if r + 1 = s.regs.interval[k].toNat then 0 else r + 1) + _
  split_ifs with hr
  · rw [Nat.succ_mul]; omega
  · omega

end InInterval

/-- Settles O60: the run keeps the phase, whose distance from the last arming is the tick's number modulo
`n`; the start is a phase that is about to arm. -/
theorem intervalModeIsPeriodic : Obligations.IntervalModeIsPeriodic := by
  intro s k m hk hdist hbus hen hmode hd hn hes hout hic
  have hstart : s.InInterval k 0 s := by
    refine ⟨⟨rfl, hbus, rfl⟩, hmode, s.regs.interval[k].toNat - 1, 0, by omega,
      .ended (by omega) hes hout, ?_⟩
    rw [hic]
    show 0 + (s.regs.interval[k].toNat - 1) + 1 = _
    omega
  have h := wallTicks_induction (P := s.InInterval k) hstart (fun T t hs h => h.offCycle hk hdist hs)
    (fun T t hs h => h.tick hk hdist hs hen hd hn) m
  obtain ⟨r, q, hT, hphase⟩ := h.phase
  have hr := hphase.ic
  refine ⟨_, runCycles_eq m s, fun hs => ?_⟩
  rw [hphase.pulse.out_iff (.inl hs)]
  generalize wallTicks m s = ticks at hT
  by_cases hpos : 1 ≤ ticks
  · have hmod : (ticks - 1) % s.regs.interval[k].toNat = r := by
      have hT' : ticks - 1 + s.regs.interval[k].toNat = r + q * s.regs.interval[k].toNat := by omega
      rw [← Nat.add_mod_right, hT', Nat.add_mul_mod_self_right, Nat.mod_eq_of_lt (by omega)]
    rw [hmod]
    exact ⟨fun hin => ⟨hpos, hin⟩, And.right⟩
  · have hq : q = 0 := by
      by_contra hq
      have := Nat.le_mul_of_pos_left s.regs.interval[k].toNat (Nat.pos_of_ne_zero hq)
      omega
    subst hq
    constructor
    · rintro ⟨-, hlt⟩; omega
    · rintro ⟨h1, -⟩; exact absurd h1 hpos

/-! ### OneShot mode (43_trigger_controller.md section 3) -/

/-- The Mode byte of a one-shot after `T` wall ticks: OneShot up to the pulse's first tick, Idle while the
pulse lasts, Stop after it, and Idle once more in the cycle that follows the pulse's last tick. -/
structure OneShotMode (m : ModeCodes) (d p T : Nat) (tick : Bool) (b : Byte) : Prop where
  before : T ≤ p + 1 → b = m.oneShot
  during : p + 2 ≤ T → T ≤ p + d → b = m.idle
  atEnd : T = p + d + 1 → b = m.stop ∨ (b = m.idle ∧ tick = false)
  after : p + d + 2 ≤ T → b = m.stop

section OneShotMode
variable {m : ModeCodes} {d p T : Nat} {b : Byte} {out : Bool} (hdist : m.distinct = true)
include hdist

/-- Off the tick only the Idle that has outlived its pulse is rewritten. -/
theorem OneShotMode.offCycle (h : OneShotMode m d p T false b)
    (hout : p + 2 ≤ T → (out = true ↔ T ≤ p + d)) (tick' : Bool) (hd : 1 ≤ d) :
    OneShotMode m d p T tick' (modeNext m false b out) := by
  obtain ⟨⟨hsi, -⟩, ⟨-, hio, -⟩, -⟩ := (modeCodes_distinct_iff m).mp hdist
  rw [modeNext_offTick]
  refine ⟨fun hT => ?_, fun hT hT' => ?_, fun hT => .inl ?_, fun hT => ?_⟩
  · rw [h.before hT, if_neg fun hc => hio hc.1.symm]
  · rw [h.during hT hT', if_neg]
    simp [(hout hT).mpr hT']
  · have hlow : out = false := Bool.eq_false_iff.mpr fun ho => by
      have := (hout (by omega)).mp ho
      omega
    rcases h.atEnd hT with hb | ⟨hb, -⟩
    · rw [hb, if_neg fun hc => hsi hc.1]
    · rw [hb, if_pos ⟨rfl, hlow⟩]
  · rw [h.after hT, if_neg fun hc => hsi hc.1]

/-- At the tick only the OneShot whose pulse has begun is rewritten. -/
theorem OneShotMode.tick_next (h : OneShotMode m d p T true b)
    (hout : out = true ↔ p + 1 ≤ T ∧ T ≤ p + d) (hd : 1 ≤ d) :
    OneShotMode m d p (T + 1) false (modeNext m true b out) := by
  obtain ⟨⟨-, -, hso, -⟩, ⟨-, hio, -⟩, -⟩ := (modeCodes_distinct_iff m).mp hdist
  have hidle (hT : p + 1 ≤ T) (hT' : T ≤ p + d) :
      (if b = m.oneShot ∧ out = true then m.idle else b) = m.idle := by
    by_cases hfirst : T = p + 1
    · rw [if_pos ⟨h.before (by omega), hout.mpr ⟨hT, hT'⟩⟩]
    · rw [h.during (by omega) hT', if_neg fun hc => hio hc.1]
  have hstop (hb : b = m.stop) : (if b = m.oneShot ∧ out = true then m.idle else b) = m.stop := by
    rw [hb, if_neg fun hc => hso hc.1]
  rw [modeNext_tick]
  refine ⟨fun hT => ?_, fun hT hT' => hidle (by omega) (by omega),
    fun hT => .inr ⟨hidle (by omega) (by omega), rfl⟩, fun hT => hstop ?_⟩
  · rw [if_neg, h.before (by omega)]
    rintro ⟨-, ho⟩
    have := (hout.mp ho).1
    omega
  · by_cases hT' : T = p + d + 1
    · exact (h.atEnd hT').resolve_right fun hc => Bool.noConfusion hc.2
    · exact h.after (by omega)

end OneShotMode

/-- A state in a run from `s` with no bus operation and a one-shot of channel `k` armed or to arm, after `T`
wall ticks, of which the first arms it. -/
structure State.InOneShot (s : State) (k : Fin 8) (T : Nat) (t : State) : Prop where
  idle : s.IdleFrom t
  mode : OneShotMode s.cfg.modes s.regs.duration[k].toNat s.regs.phase[k].toNat T t.dv.strobe t.regs.mode[k]
  start : T = 0 → t.ch[k].es = .off ∧ t.ch[k].out = false
  phase : ∀ r, T = r + 1 → PulsePhase s.regs.duration[k].toNat s.regs.phase[k].toNat r t.dv.strobe t.ch[k]

section InOneShot
variable {s t : State} {k : Fin 8} {T : Nat} (h : s.InOneShot k T t)
include h

/-- At a tick, and in every cycle after the pulse's second tick, the output is high exactly in the pulse. -/
theorem State.InOneShot.out_iff (hs : t.dv.strobe = true ∨ 2 ≤ T) :
    t.ch[k].out = true ↔
      s.regs.phase[k].toNat + 1 ≤ T ∧ T ≤ s.regs.phase[k].toNat + s.regs.duration[k].toNat := by
  cases T with
  | zero =>
    rw [(h.start rfl).2]
    exact ⟨fun hc => Bool.noConfusion hc, fun hc => by omega⟩
  | succ r =>
    rw [(h.phase r rfl).out_iff (hs.imp_right fun _ => by omega)]
    omega

variable (hdist : s.cfg.modes.distinct = true)
include hdist

/-- While the pulse lasts the Mode byte is OneShot or Idle, neither of which arms the channel again. -/
theorem State.InOneShot.step2_empty {x : TriggerInputs} {r : Nat} (hT : T = r + 1)
    (hr : r < s.regs.phase[k].toNat + s.regs.duration[k].toNat)
    (hm : x.mode = modeOf s.cfg.modes t.regs.mode[k]) :
    x.mode ≠ .constant ∧ step2 x t.ch[k] = {} := by
  by_cases hfirst : T ≤ s.regs.phase[k].toNat + 1
  · rw [h.mode.before hfirst, modeOf_oneShot hdist] at hm
    exact ⟨by simp [hm], step2_oneShot_rests x _ hm (.inr ((h.phase r hT).es_ne_off hr))⟩
  · rw [h.mode.during (by omega) (by omega), modeOf_idle hdist] at hm
    exact ⟨by simp [hm], step2_idle x _ (.inl hm)⟩

variable (hk : k.val < s.cfg.nTrig) (hd : s.regs.duration[k] ≠ 0)
include hk hd

theorem State.InOneShot.offCycle (hs : t.dv.strobe = false) : s.InOneShot k T t.nextCycle := by
  have hd1 := toNat_pred hd
  have hch := h.idle.nextCycle_ch hk
  refine ⟨h.idle.next, ?_, fun hT => ?_, fun r hT => ?_⟩
  · rw [h.idle.nextCycle_mode hk, hs]
    refine OneShotMode.offCycle hdist (hs ▸ h.mode) (fun hT => ?_) _ (by omega)
    rw [h.out_iff (.inr (by omega))]
    omega
  · obtain ⟨hes, hout⟩ := h.start hT
    rw [hch, Channel.next_offCycle _ _ _ hs (ne_of_off hes).1]
    exact ⟨hes, hout⟩
  · rw [hch]
    have hphase := h.phase r hT
    rw [hs] at hphase
    exact PulsePhase.offCycle
      (x := { s.triggerInputs k with tick := t.dv.strobe, mode := modeOf s.cfg.modes t.regs.mode[k] }) hphase _
      hs _

theorem State.InOneShot.tick (hs : t.dv.strobe = true) (hen : s.regs.triggerEnables.getLsbD k.val = true) :
    s.InOneShot k (T + 1) t.nextCycle := by
  have hd1 := toNat_pred hd
  have hlow := State.nextCycle_tick_low hs
  have hch := h.idle.nextCycle_ch hk
  refine ⟨h.idle.next, ?_, fun hT => absurd hT (Nat.succ_ne_zero T), fun r hT => ?_⟩
  · rw [h.idle.nextCycle_mode hk, hs, hlow]
    exact OneShotMode.tick_next hdist (hs ▸ h.mode) (h.out_iff (.inl hs)) (by omega)
  · obtain rfl : T = r := Nat.succ.inj hT
    rw [hch, hlow]
    cases T with
    | zero =>
      obtain ⟨hes, hout⟩ := h.start rfl
      rw [h.mode.before (Nat.zero_le _), modeOf_oneShot hdist,
        Channel.next_tick_rest _ hs hen (ne_of_off hes).1 hout (ne_of_off hes).2,
        step2_oneShot_arms _ _ rfl hd hes]
      exact .init rfl rfl rfl hout hd1
    | succ r =>
      have hphase := h.phase r rfl
      rw [hs] at hphase
      by_cases hr : r < s.regs.phase[k].toNat + s.regs.duration[k].toNat
      · obtain ⟨hm, h2⟩ := h.step2_empty hdist
          (x := { s.triggerInputs k with tick := t.dv.strobe, mode := modeOf s.cfg.modes t.regs.mode[k] })
          rfl hr rfl
        exact hphase.tick_next _ hs hen hm h2 false
      · obtain ⟨hes, hout⟩ := hphase.rest (by omega) (by omega)
        have hstop : t.regs.mode[k] = s.cfg.modes.stop := by
          by_cases hend : r + 1 = s.regs.phase[k].toNat + s.regs.duration[k].toNat + 1
          · exact (h.mode.atEnd hend).resolve_right fun hc => by simp [hs] at hc
          · exact h.mode.after (by omega)
        rw [hstop, modeOf_stop, Channel.next_tick_rest _ hs hen (ne_of_off hes).1 hout (ne_of_off hes).2,
          step2_stop _ _ rfl]
        exact .ended (by omega) rfl rfl

end InOneShot

/-- Settles O59: the run keeps the pulse's phase and the Mode byte beside it, and each clause reads one of
the two. -/
theorem oneShotFiresOnePulseAndClearsItself : Obligations.OneShotFiresOnePulseAndClearsItself := by
  intro s k n hk hdist hbus hen hmode hd hes hout
  have hd1 := toNat_pred hd
  have hstart : s.InOneShot k 0 s :=
    ⟨⟨rfl, hbus, rfl⟩, ⟨fun _ => hmode, by omega, by omega, by omega⟩, fun _ => ⟨hes, hout⟩, by omega⟩
  have h := wallTicks_induction (P := s.InOneShot k) hstart (fun T t hs h => h.offCycle hdist hk hd hs)
    (fun T t hs h => h.tick hdist hk hd hs hen) n
  have hrest (hT : s.regs.phase[k].toNat + s.regs.duration[k].toNat + 1 ≤ wallTicks n s) :
      (State.nextCycle^[n] s).ch[k].es = .off ∧ (State.nextCycle^[n] s).ch[k].out = false :=
    (h.phase (wallTicks n s - 1) (by omega)).rest (by omega) (by omega)
  refine ⟨_, runCycles_eq n s, fun hs => h.out_iff (.inl hs), h.mode.before, h.mode.during, fun hT => ?_,
    fun hT => ⟨h.mode.after hT, hrest (by omega)⟩⟩
  refine ⟨(h.mode.atEnd hT).symm.imp_left And.left, fun hs => ?_, hrest (by omega)⟩
  exact (h.mode.atEnd hT).resolve_right fun hc => by simp [hs] at hc

end Sys2Proof.Machine
